-- ==== Sys2Proof/Word.lean ====
section
/-! DEFINITION. The word types of the core: 16-bit words, bytes, nibbles and the 12-bit operand field
(00_scope.md R6, R14, R15). Constructing one from an integer truncates; that is `BitVec`'s own arithmetic. -/

namespace Sys2Proof

/-- A 16-bit word: registers, ALU operands, memory words (R6, R38). -/
abbrev Word := BitVec 16

/-- An 8-bit byte: one memory cell (R70), one buffered device byte, a device identifier (R93). -/
abbrev Byte := BitVec 8

/-- A 4-bit field: the opcode (R131), a device type code in an instruction (R135), an argument count (R136). -/
abbrev Nibble := BitVec 4

/-- The 12-bit operand field OI (R132). -/
abbrev Operand := BitVec 12

end Sys2Proof
end

