-- ==== Sys2Proof/Syntax.lean ====
section
/-! DEFINITION. The instruction set: one constructor per row of spec/opcode_table.json (30_encoding.md R137, R140).
Operands are the fields the encoding gives (R133, R135, R136); a field an instruction ignores is kept, so that no bit of a
word is lost. -/

namespace Sys2Proof

/-- An instruction of the closed set of 30_encoding.md R138. -/
inductive Instr where
  /-- JUMP, opcode 0 (42_jumps.md R210). -/
  | jump (oi : Operand)
  /-- JUMP_IF_ZERO, opcode 1 (R211). -/
  | jumpIfZero (oi : Operand)
  /-- JUMP_IF_NEG, opcode 2 (R212). -/
  | jumpIfNeg (oi : Operand)
  /-- LOAD_VALUE, opcode 3 (43_accumulator_memory.md R220). -/
  | loadValue (oi : Operand)
  /-- ADD, opcode 4 (R221). -/
  | add (oi : Operand)
  /-- SUB, opcode 5 (R222). -/
  | sub (oi : Operand)
  /-- MUL, opcode 6 (R223). -/
  | mul (oi : Operand)
  /-- DIV, opcode 7 (R224). -/
  | div (oi : Operand)
  /-- LOAD, opcode 8 (R226). -/
  | load (oi : Operand)
  /-- MEMORY, the store, opcode 9 (R227). -/
  | memory (oi : Operand)
  /-- SUBROUTINE, the call, opcode A (44_subroutine.md R240). -/
  | subroutine (oi : Operand)
  /-- RETURN, opcode B (R241). -/
  | ret (oi : Operand)
  /-- HALT, opcode C; its operand is ignored (45_halt.md R250, R251). -/
  | halt (oi : Operand)
  /-- GET_DATA, opcode D: device type code and identifier (46_io.md R260). -/
  | getData (t : Nibble) (i : Byte)
  /-- PUT_DATA, opcode E (R261). -/
  | putData (t : Nibble) (i : Byte)
  /-- OS 0xEE, print status (47_os_trap.md R282). -/
  | osPrintStatus (argc : Nibble)
  /-- OS 0xEF, software call; the argument count is ignored (R286). -/
  | osSoftwareCall (argc : Nibble)
  /-- OS 0x57, stack primitives (R290). -/
  | osStack (argc : Nibble)
  /-- OS 0x01, bitwise operations; the argument count is ignored (R296). -/
  | osBitwise (argc : Nibble)
  /-- OS 0x0D, device-buffer control; the argument count is ignored (R300). -/
  | osBufferControl (argc : Nibble)
  /-- OS 0x71, delay; the argument count is ignored (R305). -/
  | osDelay (argc : Nibble)
  /-- OS with any other sub-code (R308); the argument count is ignored. -/
  | osUnknown (argc : Nibble) (code : Byte)
  deriving DecidableEq, Repr

end Sys2Proof
end

