-- ==== Sys2Proof/WellFormed.lean ====
section
/-! DEFINITION. Which terms of `Instr` an encoding stands for. The field widths are in the types; the one thing left to
check is that `osUnknown` holds none of the six sub-codes that have a row of their own (30_encoding.md R140). -/

namespace Sys2Proof

/-- The six OS sub-codes with a service of their own (R140). -/
def knownOsCodes : List Byte := [0xEE, 0xEF, 0x57, 0x01, 0x0D, 0x71]

/-- The instruction is what some word decodes to. -/
def Instr.wellFormed : Instr → Bool
  | .jump _ => true
  | .jumpIfZero _ => true
  | .jumpIfNeg _ => true
  | .loadValue _ => true
  | .add _ => true
  | .sub _ => true
  | .mul _ => true
  | .div _ => true
  | .load _ => true
  | .memory _ => true
  | .subroutine _ => true
  | .ret _ => true
  | .halt _ => true
  | .getData _ _ => true
  | .putData _ _ => true
  | .osPrintStatus _ => true
  | .osSoftwareCall _ => true
  | .osStack _ => true
  | .osBitwise _ => true
  | .osBufferControl _ => true
  | .osDelay _ => true
  | .osUnknown _ code => !knownOsCodes.contains code

end Sys2Proof
end

