-- ==== Sys2Proof/Decode.lean ====
section
/-! DEFINITION. Decoding and encoding (30_encoding.md R130 to R147). Decoding a word is total and has exactly one answer
(R138); decoding bytes refuses, by name, only where fewer than two bytes are given. -/

namespace Sys2Proof

/-- Why bytes are no instruction: an instruction is one word of two bytes (R130). -/
inductive DecodeError where
  /-- Fewer than two bytes were given. -/
  | truncated (have_ : Nat)
  deriving DecidableEq, Repr

/-- The big-endian word of two bytes, the byte at the lower address first (20_memory.md R77). -/
def wordOfBytes (hi lo : Byte) : Word := hi ++ lo

/-- The opcode field, IR[15:12] (R131). -/
def opcodeField (w : Word) : Nibble := w.extractLsb' 12 4

/-- The operand field, IR[11:0] (R132). -/
def operandField (w : Word) : Operand := w.extractLsb' 0 12

/-- The high four bits of the operand: the device type code (R135) or the argument count (R136). -/
def operandHigh (oi : Operand) : Nibble := oi.extractLsb' 8 4

/-- The low byte of the operand: the device identifier (R135) or the trap sub-code (R136). -/
def operandLow (oi : Operand) : Byte := oi.extractLsb' 0 8

/-- The OS rows, selected by the sub-code (R140). -/
def decodeOs (argc : Nibble) (code : Byte) : Instr :=
  if code = 0xEE then .osPrintStatus argc
  else if code = 0xEF then .osSoftwareCall argc
  else if code = 0x57 then .osStack argc
  else if code = 0x01 then .osBitwise argc
  else if code = 0x0D then .osBufferControl argc
  else if code = 0x71 then .osDelay argc
  else .osUnknown argc code

/-- The opcode map (R137): every word is one instruction (R138). -/
def decodeWord (w : Word) : Instr :=
  let oi := operandField w
  match (opcodeField w).toNat with
  | 0x0 => .jump oi
  | 0x1 => .jumpIfZero oi
  | 0x2 => .jumpIfNeg oi
  | 0x3 => .loadValue oi
  | 0x4 => .add oi
  | 0x5 => .sub oi
  | 0x6 => .mul oi
  | 0x7 => .div oi
  | 0x8 => .load oi
  | 0x9 => .memory oi
  | 0xA => .subroutine oi
  | 0xB => .ret oi
  | 0xC => .halt oi
  | 0xD => .getData (operandHigh oi) (operandLow oi)
  | 0xE => .putData (operandHigh oi) (operandLow oi)
  | _ => decodeOs (operandHigh oi) (operandLow oi)

/-- An instruction from bytes, with the bytes after it (R130). -/
def decode : List Byte → Except DecodeError (Instr × List Byte)
  | hi :: lo :: rest => .ok (decodeWord (wordOfBytes hi lo), rest)
  | [] => .error (.truncated 0)
  | [_] => .error (.truncated 1)

/-- An OI made of its two sub-fields (R135, R136). -/
def operandOf (hi : Nibble) (lo : Byte) : Operand := hi ++ lo

/-- The word of an opcode and an operand, (OP << 12) | OI (R147). -/
def wordOfFields (op : Nibble) (oi : Operand) : Word := op ++ oi

/-- The word of an instruction (R137, R147). -/
def encode : Instr → Word
  | .jump oi => wordOfFields 0x0 oi
  | .jumpIfZero oi => wordOfFields 0x1 oi
  | .jumpIfNeg oi => wordOfFields 0x2 oi
  | .loadValue oi => wordOfFields 0x3 oi
  | .add oi => wordOfFields 0x4 oi
  | .sub oi => wordOfFields 0x5 oi
  | .mul oi => wordOfFields 0x6 oi
  | .div oi => wordOfFields 0x7 oi
  | .load oi => wordOfFields 0x8 oi
  | .memory oi => wordOfFields 0x9 oi
  | .subroutine oi => wordOfFields 0xA oi
  | .ret oi => wordOfFields 0xB oi
  | .halt oi => wordOfFields 0xC oi
  | .getData t i => wordOfFields 0xD (operandOf t i)
  | .putData t i => wordOfFields 0xE (operandOf t i)
  | .osPrintStatus argc => wordOfFields 0xF (operandOf argc 0xEE)
  | .osSoftwareCall argc => wordOfFields 0xF (operandOf argc 0xEF)
  | .osStack argc => wordOfFields 0xF (operandOf argc 0x57)
  | .osBitwise argc => wordOfFields 0xF (operandOf argc 0x01)
  | .osBufferControl argc => wordOfFields 0xF (operandOf argc 0x0D)
  | .osDelay argc => wordOfFields 0xF (operandOf argc 0x71)
  | .osUnknown argc code => wordOfFields 0xF (operandOf argc code)

/-- The word the opcode table's numbering gives: the first `nbits` bits of `w`, every bit above them zero. -/
def tableWord (nbits w : Nat) : Word := BitVec.ofNat 16 (w % 2 ^ nbits)

/-- What the decoder reads from an instruction whose bits are `w`, numbered as spec/opcode_table.json numbers them: the
word is laid out big-endian, its high byte at the lower address (R130). -/
def decodeTableWord (nbits w : Nat) : Option Instr :=
  let word := tableWord nbits w
  match decode [word.extractLsb' 8 8, word.extractLsb' 0 8] with
  | .ok (i, _) => some i
  | .error _ => none

end Sys2Proof
end

