-- ==== Sys2Proof/Config.lean ====
section
/-! DEFINITION. What the spec leaves to an implementation, to the host or to the environment. A constant without a
body is a free value: nothing can be proved of what it is, so a theorem holds for every value of it. -/

namespace Sys2Proof

/-- TI_LIMIT as the host configured it at construction: the spec gives no default, "none, OPEN" (00_scope.md R7).
DESIGN CHOICE, safe: free (log entry 6). -/
opaque Config.tiLimit : Nat

/-- STATUS_CODES, the finite map from AC values to diagnostic strings of OS sub-code 0xEE: OPEN (00_scope.md R7,
47_os_trap.md R282, 92 D13). DESIGN CHOICE, safe: free (log entry 6). -/
opaque Config.statusCodes : List (Word × String)

/-- The environment's answer to the `n`-th keyboard pull that `State.inputs` does not answer: a line of bytes, or none
by the timeout (20_memory.md R96, 92 D17: a draw). DESIGN CHOICE, safe: free (log entry 8). -/
opaque Config.keyboardLine (timeout n : Nat) : Option (List Byte)

/-- What a file holds that no entry of `State.files` gives: no Disk(Write) was opened on it, and the host gave no bytes of
it (20_memory.md R97). DESIGN CHOICE, safe: free (log entry 9). That it depends on the path alone, so does not change while
the machine runs, is DESIGN CHOICE, unsafe (log entry 20). -/
opaque Config.hostFile (path : String) : List Byte

/-- Whether append on a Disk(Read) keeps the unread rest of its buffer before the reloaded file: the spec says "refills"
and "reloads" (20_memory.md R97, R100; 47_os_trap.md R300). DESIGN CHOICE, safe: free (log entry 10). -/
opaque Config.diskAppendKeepsRest : Bool

end Sys2Proof
end

