-- ==== Sys2Proof/Machine/State.lean ====
section
/-! DEFINITION. The state of the core as plain data, the reasons a step stops, and the state after reset. -/

namespace Sys2Proof.Machine

/-- TrapState, the two-state machine of 10_state.md R40 and R41. -/
inductive TrapState where
  /-- Not in a software call; the source's `end` flag is true. -/
  | running
  /-- Inside a software call that returns to `r`. -/
  | inTrap (r : Word)
  deriving DecidableEq, Repr

/-- The device types of 20_memory.md R90. -/
inductive DeviceType where
  | keyboard
  | display
  | printer
  | disk
  deriving DecidableEq, Repr

/-- The mode a disk is opened in (R90). -/
inductive DiskMode where
  | read
  | write
  deriving DecidableEq, Repr

/-- What a device is: its type, and for a disk its mode and its backing file (R90). -/
inductive DeviceKind where
  | keyboard
  | display
  | printer
  | disk (mode : DiskMode) (path : String)
  deriving DecidableEq, Repr

/-- One entry of the device table (R90; 10_state.md R46). -/
structure Device where
  kind : DeviceKind
  /-- The identifier, 8 bits (R93). -/
  id : Byte
  /-- The buffered bytes, next one first (R96, R97). -/
  buffer : List Byte
  /-- Whether the device holds an open file handle (R101). -/
  handleOpen : Bool
  deriving DecidableEq, Repr

/-- DEVICE_TYPE_CODE, the numeric code of each device type (20_memory.md R93). A byte, since OS 0x0D names a device by an
8-bit code (47_os_trap.md R300) and the host may register a code above 15 (30_encoding.md R135). -/
structure TypeCodes where
  keyboard : Byte
  display : Byte
  printer : Byte
  disk : Byte
  deriving DecidableEq, Repr

/-- The host's configuration, fixed for the length of a run (10_state.md R30, R43) and the open parameters of
00_scope.md R7. -/
structure HostConfig where
  /-- TI_ENABLED: a time interrupt is configured. -/
  tiEnabled : Bool
  /-- TI_LIMIT: the step counter's configured limit. -/
  tiLimit : Nat
  /-- KBD_TIMEOUT, in milliseconds. -/
  kbdTimeout : Nat
  /-- DEVICE_TYPE_CODE. -/
  typeCodes : TypeCodes
  /-- STATUS_CODES: the AC values OS 0xEE knows, each with its diagnostic string. -/
  statusCodes : List (Word × String)
  deriving DecidableEq, Repr

/-- The faults of 60_exceptions.md R330, each with the information it records. A step that raises one records it in the
state (`State.faultRecord`, R331) and the machine takes no further step: `step` of a state with a fault record answers that
fault. Safe: nothing can be proved of a run beyond it. -/
inductive Fault where
  /-- Code 1. Raised by a word access whose bytes are not both in 0x000..0xFFF: fetch, opcodes 4 to 9, A, B, OS 0x57, 0x01,
  0x0D and the host's accesses. Safe. -/
  | outOfRange (addr : Word)
  /-- Code 2. Raised by the ALU's contract on a function code outside its set; by no instruction (40_alu.md R172). Safe. -/
  | invalidInstruction (code : Int)
  /-- Code 3. Raised by the ALU's contract on an operand outside 0..0xFFFF; by no instruction (R172). Safe. -/
  | invalidOperand (value : Int)
  /-- Code 4. Raised by GET_DATA, PUT_DATA and OS 0x0D where no device matches. Safe. -/
  | deviceNotFound (t i : Byte)
  /-- Code 5. Raised by GET_DATA on a device that cannot be read. Safe. -/
  | unreadableDevice (t i : Byte)
  /-- Code 6. Raised by PUT_DATA on a device that cannot be written. Safe. -/
  | unwritableDevice (t i : Byte)
  /-- Code 7. Raised by OS 0x0D on a device without a buffer. Safe. -/
  | noBuffer (t i : Byte)
  /-- Code 8. Raised by the host's `add` of a pair already present. Safe. -/
  | deviceAlreadyExists (type : DeviceType) (id : Byte)
  /-- Code 9. Raised by OS 0xEE and 0x57 on a wrong argument count. Safe. -/
  | argumentCountMismatch (code : Byte) (expected got : Nibble)
  /-- Code 10. Raised by DIV on a divisor of zero (40_alu.md R169). Safe. -/
  | divisionByZero (dividend : Word)
  /-- Code 11. Raised by OS 0xEE, 0x57, 0x01 and 0x0D on an AC outside their selectors. Safe. -/
  | invalidServiceSelector (code : Byte) (ac : Word)
  /-- Code 12. Raised by the host's `load` on an entry that is no pair. Safe. -/
  | malformedLoad (index : Nat)
  /-- Code 13. Raised by the host's `dump` on a first address above the last. Safe. -/
  | invalidDumpRange (first last : Word)
  deriving DecidableEq, Repr

/-- The fault record: the fault with its information, and the IC of the step that raised it (60_exceptions.md R331). -/
structure FaultRecord where
  fault : Fault
  ic0 : Word
  deriving DecidableEq, Repr

/-- Why an instruction has no meaning in the model. -/
inductive Refusal where
  /-- Answered by an arm of `exec` whose instruction has no meaning yet; no arm does. Safe. -/
  | notModelled (mnemonic : String)
  deriving DecidableEq, Repr

/-- The output events of 20_memory.md R104; `t` and `i` are the device's type code and identifier. -/
inductive Event where
  /-- A word written to a Display (R99). -/
  | displayOut (t i : Byte) (w : Word)
  /-- A word written to a Disk(Write) (R99). -/
  | diskOut (t i : Byte) (w : Word)
  /-- OS 0xEE: the host shows the status string of this code (47_os_trap.md R282). -/
  | status (v : Word)
  /-- OS 0x71: a wait of this many milliseconds (R305). -/
  | delay (ms : Nat)
  /-- An OS sub-code without a service (R308). -/
  | unknownTrap (code : Byte)
  /-- OS 0x0D, clean (R300). -/
  | bufferCleaned (t i : Byte)
  /-- OS 0x0D, append (R300). -/
  | bufferAppended (t i : Byte)
  deriving DecidableEq, Repr

/-- Memory: address and byte pairs, addresses strictly rising, no entry equal to what an unlisted address reads as
(`Memory.wf`, Machine/Ops.lean). -/
abbrev Memory := List Host.Cell

/-- The state of 10_state.md R30, with the fault record (R48), the output history (20_memory.md R104), the host's
configuration (R30, R43), the Boolean a step returns (41_cycle.md R198) and what the environment supplies. -/
structure State where
  /-- Memory address register (R31). -/
  mar : Word
  /-- Memory data register (R32). -/
  mdr : Word
  /-- Instruction counter, the program counter (R33). -/
  ic : Word
  /-- Instruction register (R34). -/
  ir : Word
  /-- Opcode register (R35). -/
  op : Word
  /-- Operand register (R36). -/
  oi : Word
  /-- Accumulator (R37). -/
  ac : Word
  /-- TrapState (R40). -/
  trap : TrapState
  /-- StepCount, without upper bound (R42). -/
  stepCount : Nat
  /-- The 4096 bytes of Mem (20_memory.md R70). -/
  mem : Memory
  /-- The device table (20_memory.md R90). -/
  devices : List Device
  /-- The backing files that the host gave at construction or a Disk(Write) was opened on: path and bytes
  (20_memory.md R97, R99, R104). They are what a new construction keeps (log entry 9). -/
  files : List (String × List Byte)
  /-- The host's configuration. -/
  config : HostConfig
  /-- The fault record, none until a step raises a fault (R48). -/
  faultRecord : Option FaultRecord
  /-- The output history, oldest event first (20_memory.md R104). -/
  events : List Event
  /-- What the last step returned: `some true` to continue, `some false` for a true HALT, none where no step has returned
  or the last one faulted (41_cycle.md R190, R198, R199). DESIGN CHOICE, safe (log entry 5). -/
  continues : Option Bool
  /-- The model's own field: the environment's answers to the next keyboard pulls (log entry 8). -/
  inputs : List (Option (List Byte))
  /-- The model's own field: how many keyboard pulls the free value `Config.keyboardLine` has answered (log entry 8). -/
  draws : Nat
  deriving DecidableEq, Repr

/-- The default codes of 00_scope.md R7: Keyboard 0, Display 1, Printer 2, Disk 3. -/
def TypeCodes.default : TypeCodes := { keyboard := 0, display := 1, printer := 2, disk := 3 }

/-- The default configuration of 00_scope.md R7; the two OPEN parameters are free values. -/
def HostConfig.default : HostConfig :=
  { tiEnabled := false, tiLimit := Config.tiLimit, kbdTimeout := 0, typeCodes := .default,
    statusCodes := Config.statusCodes }

/-- The devices at construction: Keyboard#0 and Display#0, buffers empty (20_memory.md R92). -/
def defaultDevices : List Device :=
  [{ kind := .keyboard, id := 0, buffer := [], handleOpen := false },
   { kind := .display, id := 0, buffer := [], handleOpen := false }]

/-- Construction of the engine (70_reset_and_hazards.md R380, 10_state.md R50), for the host's configuration and for
any draw of what the spec leaves unspecified: MAR, MDR, IC, IR and AC. OP and OI are functions of IR (R35, R36; log
entry 2). The backing files are the only state that survives (20_memory.md R104), so they are an argument. -/
def State.construct (config : HostConfig) (files : List (String × List Byte)) (mar mdr ic ir ac : Word) : State :=
  { mar := mar, mdr := mdr, ic := ic, ir := ir
    op := (ir.extractLsb' 12 4).setWidth 16
    oi := (ir.extractLsb' 0 12).setWidth 16
    ac := ac, trap := .running, stepCount := 0, mem := [], devices := defaultDevices, files := files
    config := config, faultRecord := none, events := [], continues := none, inputs := [], draws := 0 }

/-- The machine right after reset: construction with the default configuration, no file of an earlier life, and zero for
every register the spec gives no reset value for. DESIGN CHOICE, unsafe (log entries 1, 2, 3). -/
def State.reset : State := State.construct .default [] 0 0 0 0 0

end Sys2Proof.Machine
end

