-- ==== Sys2Proof/Machine/Ops.lean ====
section
/-! DEFINITION. The named operations over memory and registers: the memory port, the end of a step, raising a fault,
taking the time interrupt at decode, entering a software call and returning from one. An operation that can fail takes the
rest of the step as its last argument, so that a fault stops the statements after it (00_scope.md R20). -/

namespace Sys2Proof.Machine

/-! ### Constants -/

/-- SP_ADDR, the address of the stack-pointer word (10_state.md R44). -/
def spAddr : Word := 0x0FFE

/-- The word the time interrupt injects (30_encoding.md R144). -/
def sentinel : Word := 0xA000

/-! ### Memory (20_memory.md) -/

/-- What an address no entry lists reads as: "Undefined addresses read as zero" (R71). -/
def unlistedByte : Byte := 0x00

/-- The byte at an address. -/
def Memory.read : Memory → Nat → Byte
  | [], _ => unlistedByte
  | (b, v) :: rest, a => if a = b then v else Memory.read rest a

/-- Write one byte, keeping the canonical form: writing what an unlisted address reads as removes the entry. -/
def Memory.write : Memory → Nat → Byte → Memory
  | [], a, v => if v = unlistedByte then [] else [(a, v)]
  | (b, w) :: rest, a, v =>
    if a < b then (if v = unlistedByte then (b, w) :: rest else (a, v) :: (b, w) :: rest)
    else if a = b then (if v = unlistedByte then rest else (a, v) :: rest)
    else (b, w) :: Memory.write rest a v

/-- The canonical form from address `lo` on: addresses strictly rising, each of the 4096 cells (R70), no entry equal to
what an unlisted address reads as. -/
def Memory.wfFrom : Nat → Memory → Bool
  | _, [] => true
  | lo, (a, v) :: rest => decide (lo ≤ a) && decide (a ≤ 0xFFF) && decide (v ≠ unlistedByte) && Memory.wfFrom (a + 1) rest

/-- The canonical form of a memory. -/
def Memory.wf (m : Memory) : Bool := Memory.wfFrom 0 m

/-- The byte of `Mem` at an address. -/
def State.readByte (s : State) (a : Nat) : Byte := Memory.read s.mem a

/-- Both bytes of the word at `a` are in the address space; the whole 16-bit address counts (R72, R75). -/
def wordInRange (a : Word) : Bool := decide (a.toNat ≤ 0xFFF) && decide (a.toNat + 1 ≤ 0xFFF)

/-- The big-endian word at an address (R72, R77). -/
def wordAt (m : Memory) (a : Nat) : Word := wordOfBytes (Memory.read m a) (Memory.read m (a + 1))

/-- MemRead(a, 2): none where the access is out of range (R72). -/
def State.readWord (s : State) (a : Word) : Option Word :=
  if wordInRange a then some (wordAt s.mem a.toNat) else none

/-- The memory with a word stored big-endian at an address (R73, R77). -/
def storeWord (m : Memory) (a : Nat) (v : Word) : Memory :=
  Memory.write (Memory.write m a (v.extractLsb' 8 8)) (a + 1) (v.extractLsb' 0 8)

/-- MemWrite(a, 2, v): none, and no byte written, where the access is out of range (R73). -/
def State.writeWord (s : State) (a v : Word) : Option State :=
  if wordInRange a then some { s with mem := storeWord s.mem a.toNat v } else none

/-! ### The end of a step (41_cycle.md R195 to R199) -/

/-- The step returns `true` (R198). -/
def State.done (s : State) : State := { s with continues := some true }

/-- The step returns `false`: a true HALT (R198). -/
def State.stop (s : State) : State := { s with continues := some false }

/-- Raise a fault: the step ends without a return value, every write made before stays, and the fault record takes the
fault and the IC of the step, which no instruction has changed before its last check (R199; 60_exceptions.md R331, R332). -/
def State.raise (s : State) (f : Fault) : State :=
  { s with faultRecord := some { fault := f, ic0 := s.ic }, continues := none }

/-- IC <- trunc16(IC + 2) (R195, R196). -/
def State.advance (s : State) : State := { s with ic := s.ic + 2 }

/-- Append an event to the output history (20_memory.md R104). -/
def State.emit (s : State) (e : Event) : State := { s with events := s.events ++ [e] }

/-! ### The memory port: every access of an instruction goes through MAR and MDR (10_state.md R31, R32) -/

/-- MAR <- a; MDR <- MemRead(MAR, 2); then the rest. -/
def readInto (s : State) (a : Word) (rest : State → State) : State :=
  match s.readWord a with
  | some w => rest { s with mar := a, mdr := w }
  | none => State.raise { s with mar := a } (.outOfRange a)

/-- MAR <- a; MDR <- v; MemWrite(MAR, 2, MDR); then the rest. -/
def writeFrom (s : State) (a v : Word) (rest : State → State) : State :=
  match State.writeWord { s with mar := a, mdr := v } a v with
  | some s1 => rest s1
  | none => State.raise { s with mar := a, mdr := v } (.outOfRange a)

/-! ### Fetch and decode (41_cycle.md R190 to R193) -/

/-- Fetch: MAR <- IC; MDR <- MemRead(MAR, 2). On a fault the step ends before decode (R191). -/
def fetchThen (s : State) (rest : State → Host.Outcome State Fault Refusal) : Host.Outcome State Fault Refusal :=
  match s.readWord s.ic with
  | some w => rest { s with mar := s.ic, mdr := w }
  | none => .next (State.raise { s with mar := s.ic } (.outOfRange s.ic))

/-- A time interrupt is pending: one is configured and the step counter has reached its limit (60_exceptions.md R341). -/
def State.timeInterruptPending (s : State) : Bool :=
  s.config.tiEnabled && decide (s.config.tiLimit ≤ s.stepCount)

/-- Decode: a pending time interrupt replaces the fetched word in IR by the sentinel and resets the step counter; MDR
keeps the fetched word (R193). OP and OI follow from IR, and the step counter increments (R192). -/
def State.decodePhase (s : State) : State :=
  let ir := if s.timeInterruptPending then sentinel else s.mdr
  let count := if s.timeInterruptPending then 0 else s.stepCount
  { s with
    ir := ir
    op := (opcodeField ir).setWidth 16
    oi := (operandField ir).setWidth 16
    stepCount := count + 1 }

/-! ### The software call (60_exceptions.md R351) -/

/-- Enter a software call: the address of the next word is saved in TrapState, and IC is set two below AC, so that the
common advance of the OS arm lands on AC (47_os_trap.md R286). One slot: an older return address is lost (R287). -/
def State.enterSoftwareCall (s : State) : State :=
  { s with trap := .inTrap (s.ic + 2), ic := s.ac - 2 }

/-- Return from a software call to `r`, with no advance (45_halt.md R250). -/
def State.returnFromSoftwareCall (s : State) (r : Word) : State :=
  { s with ic := r, trap := .running }

/-! ### Fault codes -/

/-- The numeric code of a fault (60_exceptions.md R330). -/
def Fault.code : Fault → Nat
  | .outOfRange _ => 1
  | .invalidInstruction _ => 2
  | .invalidOperand _ => 3
  | .deviceNotFound _ _ => 4
  | .unreadableDevice _ _ => 5
  | .unwritableDevice _ _ => 6
  | .noBuffer _ _ => 7
  | .deviceAlreadyExists _ _ => 8
  | .argumentCountMismatch _ _ _ => 9
  | .divisionByZero _ => 10
  | .invalidServiceSelector _ _ => 11
  | .malformedLoad _ => 12
  | .invalidDumpRange _ _ => 13

end Sys2Proof.Machine
end

