-- ==== Sys2Proof/Machine/Operands.lean ====
section
/-! DEFINITION. The operand forms of 30_encoding.md R133, and the word below MAR that OS sub-codes take as an argument
(92 D10). -/

namespace Sys2Proof.Machine

/-- A direct address, jump target or immediate: the operand zero-extended to 16 bits (R132, R134). -/
def operandWord (oi : Operand) : Word := oi.setWidth 16

/-- The device type code of an instruction, as the code a device is looked up by (R135). -/
def selectorCode (t : Nibble) : Byte := t.setWidth 8

/-- The high byte of a word: a device type code in OS 0x0D's argument word (47_os_trap.md R300). -/
def highByte (w : Word) : Byte := w.extractLsb' 8 8

/-- The low byte of a word: a device identifier in OS 0x0D's argument word (R300). -/
def lowByte (w : Word) : Byte := w.extractLsb' 0 8

/-- Take the word just below MAR, leaving MAR there: MAR <- trunc16(MAR - 2); MDR <- MemRead(MAR, 2) (47_os_trap.md R292,
R296). -/
def popWord (s : State) (rest : State → State) : State := readInto s (s.mar - 2) rest

end Sys2Proof.Machine
end

