-- ==== Sys2Proof/Machine/Flags.lean ====
section
/-! DEFINITION. The core keeps no flags (10_state.md R45): the two conditions a jump tests are computed from AC when it
executes, by ALU codes 1 and 2. -/

namespace Sys2Proof.Machine

/-- ALU code 1, is-zero (40_alu.md R163). -/
def aluIsZero (a : Word) : Bool := a == 0

/-- ALU code 2, is-negative: bit 15 is set (R164). -/
def aluIsNegative (a : Word) : Bool := a.getLsbD 15

end Sys2Proof.Machine
end

