-- ==== Sys2Proof/Machine/Alu.lean ====
section
/-! DEFINITION. The arithmetic/logic unit (40_alu.md): a stateless function of a function code and two operands. No
function writes a flag. -/

namespace Sys2Proof.Machine

/-- trunc16 of an integer (00_scope.md R15). -/
def trunc16 (v : Int) : Word := BitVec.ofInt 16 v

/-- signed16: the two's-complement reading of a word (00_scope.md R16). -/
def signed16 (v : Word) : Int := if v.getLsbD 15 then (v.toNat : Int) - 65536 else (v.toNat : Int)

/-- Code 4, add (R165). -/
def aluAdd (a b : Word) : Word := a + b

/-- Code 5, subtract (R166). -/
def aluSubtract (a b : Word) : Word := a - b

/-- Code 6, multiply: the low 16 bits of the product (R167). -/
def aluMultiply (a b : Word) : Word := a * b

/-- The quotient of code 7: the absolute values divided, truncated towards zero, negative where exactly one operand is
(R168). -/
def aluQuotient (a b : Word) : Word :=
  let q : Nat := (signed16 a).natAbs / (signed16 b).natAbs
  if (signed16 a < 0) ≠ (signed16 b < 0) then trunc16 (-(q : Int)) else trunc16 q

/-- Code 7, divide, with the fault of a zero divisor (R168, R169). -/
def aluDivide (a b : Word) : Except Fault Word :=
  if signed16 b = 0 then .error (.divisionByZero a) else .ok (aluQuotient a b)

/-- Code 0xA, bitwise NOT (R170). -/
def aluNot (a : Word) : Word := a ^^^ 0xFFFF

/-- Code 0xB, bitwise AND (R171). -/
def aluAnd (a b : Word) : Word := a &&& b

/-- Code 0xC, bitwise OR (R171). -/
def aluOr (a b : Word) : Word := a ||| b

/-- Code 0xD, bitwise XOR (R171). -/
def aluXor (a b : Word) : Word := a ^^^ b

/-- The functions that give a word, by code (R161, R162); any other code is an invalid one. -/
def aluWord (code : Nibble) (a b : Word) : Except Fault Word :=
  match code.toNat with
  | 0x4 => .ok (aluAdd a b)
  | 0x5 => .ok (aluSubtract a b)
  | 0x6 => .ok (aluMultiply a b)
  | 0x7 => aluDivide a b
  | 0xA => .ok (aluNot a)
  | 0xB => .ok (aluAnd a b)
  | 0xC => .ok (aluOr a b)
  | 0xD => .ok (aluXor a b)
  | n => .error (.invalidInstruction n)

/-- What the ALU returns (R160). -/
inductive AluValue where
  | word (w : Word)
  | bool (b : Bool)
  deriving DecidableEq, Repr

/-- The ALU's contract on arbitrary integers (R160, R161): a code outside the set fails, then an operand outside
0..0xFFFF fails. No instruction reaches either check (R172). DESIGN CHOICE, safe: the code is checked before the operands
(log entry 18). -/
def aluExecute (code a b : Int) : Except Fault AluValue :=
  if code ∉ [1, 2, 4, 5, 6, 7, 0xA, 0xB, 0xC, 0xD] then .error (.invalidInstruction code)
  else if a < 0 ∨ 0xFFFF < a then .error (.invalidOperand a)
  else if b < 0 ∨ 0xFFFF < b then .error (.invalidOperand b)
  else if code = 1 then .ok (.bool (aluIsZero (trunc16 a)))
  else if code = 2 then .ok (.bool (aluIsNegative (trunc16 a)))
  else (aluWord (BitVec.ofInt 4 code) (trunc16 a) (trunc16 b)).map .word

/-- AC <- ALU(code, a, b); then the rest (43_accumulator_memory.md R225). -/
def aluIntoAc (s : State) (code : Nibble) (a b : Word) (rest : State → State) : State :=
  match aluWord code a b with
  | .ok r => rest { s with ac := r }
  | .error f => s.raise f

end Sys2Proof.Machine
end

