-- ==== Sys2Proof/Machine/Accumulator.lean ====
section
/-! DEFINITION. The accumulator and memory instructions, opcodes 3 to 9 (43_accumulator_memory.md). -/

namespace Sys2Proof.Machine

/-- The one datapath of opcodes 4 to 7, which pass their own opcode to the ALU (R225). -/
def accumulate (code : Nibble) (oi : Operand) (s : State) : State :=
  readInto s (operandWord oi) fun s1 =>
    aluIntoAc s1 code s1.ac s1.mdr fun s2 => s2.advance.done

/-- LOAD_VALUE (R220). -/
def execLoadValue (oi : Operand) (s : State) : Host.Outcome State Fault Refusal :=
  .next (State.advance { s with ac := operandWord oi }).done

/-- ADD (R221). -/
def execAdd (oi : Operand) (s : State) : Host.Outcome State Fault Refusal :=
  .next (accumulate 0x4 oi s)

/-- SUB (R222). -/
def execSub (oi : Operand) (s : State) : Host.Outcome State Fault Refusal :=
  .next (accumulate 0x5 oi s)

/-- MUL (R223). -/
def execMul (oi : Operand) (s : State) : Host.Outcome State Fault Refusal :=
  .next (accumulate 0x6 oi s)

/-- DIV (R224). -/
def execDiv (oi : Operand) (s : State) : Host.Outcome State Fault Refusal :=
  .next (accumulate 0x7 oi s)

/-- LOAD (R226). -/
def execLoad (oi : Operand) (s : State) : Host.Outcome State Fault Refusal :=
  .next (readInto s (operandWord oi) fun s1 => (State.advance { s1 with ac := s1.mdr }).done)

/-- MEMORY, the store (R227). -/
def execMemory (oi : Operand) (s : State) : Host.Outcome State Fault Refusal :=
  .next (writeFrom s (operandWord oi) s.ac fun s1 => s1.advance.done)

end Sys2Proof.Machine
end

