-- ==== Sys2Proof/Machine/Devices.lean ====
section
/-! DEFINITION. The I/O port: the device table, the capabilities of each type, lookup, reading, writing and buffer control
(20_memory.md R90 to R100). -/

namespace Sys2Proof.Machine

/-! ### Capabilities (R91) -/

/-- The type of a device. -/
def DeviceKind.type : DeviceKind → DeviceType
  | .keyboard => .keyboard
  | .display => .display
  | .printer => .printer
  | .disk _ _ => .disk

/-- The device can be read. -/
def DeviceKind.readable : DeviceKind → Bool
  | .keyboard => true
  | .disk .read _ => true
  | .display => false
  | .printer => false
  | .disk .write _ => false

/-- The device can be written. -/
def DeviceKind.writable : DeviceKind → Bool
  | .display => true
  | .disk .write _ => true
  | .keyboard => false
  | .printer => false
  | .disk .read _ => false

/-- The device has a buffer. -/
def DeviceKind.buffered : DeviceKind → Bool
  | .keyboard => true
  | .disk .read _ => true
  | .display => false
  | .printer => false
  | .disk .write _ => false

/-! ### The device table -/

/-- The pair that identifies a device (R90). -/
def Device.key (d : Device) : DeviceType × Byte := (d.kind.type, d.id)

/-- The numeric code of a device type (R93). -/
def TypeCodes.code (c : TypeCodes) : DeviceType → Byte
  | .keyboard => c.keyboard
  | .display => c.display
  | .printer => c.printer
  | .disk => c.disk

/-- The device answers to type code `t` and identifier `i`. -/
def Device.answers (c : TypeCodes) (t i : Byte) (d : Device) : Bool := c.code d.kind.type == t && d.id == i

/-- Lookup(t, i): the engine scans the device list for a match (R94). -/
def State.lookup (s : State) (t i : Byte) : Option Device := s.devices.find? (Device.answers s.config.typeCodes t i)

/-- The device list with the buffer of the first device that answers replaced. -/
def setFirstBuffer (answers : Device → Bool) (buffer : List Byte) : List Device → List Device
  | [] => []
  | d :: rest => if answers d then { d with buffer := buffer } :: rest else d :: setFirstBuffer answers buffer rest

/-- The buffer of the device at (t, i) replaced. -/
def State.setBuffer (s : State) (t i : Byte) (buffer : List Byte) : State :=
  { s with devices := setFirstBuffer (Device.answers s.config.typeCodes t i) buffer s.devices }

/-! ### Backing files (R97, R99, R104) -/

/-- The bytes a Disk(Read) takes from a backing file: those the state lists, and for a file it does not list, what the
environment holds (R97). DESIGN CHOICE, unsafe: nothing but the machine changes a file, so the preload when a disk is added
and every later reload take the same bytes of a file no Disk(Write) wrote; the spec is silent on it (log entry 20). -/
def fileBytes (files : List (String × List Byte)) (path : String) : List Byte :=
  (files.lookup path).getD (Config.hostFile path)

/-- The bytes of a Disk(Write)'s file: the words written to it, so none where the file is not listed (R104; log entry 9). -/
def writtenBytes (files : List (String × List Byte)) (path : String) : List Byte := (files.lookup path).getD []

/-- The bytes appended to a Disk(Write)'s file, durable at once (R99). -/
def appendToFile (files : List (String × List Byte)) (path : String) (bytes : List Byte) : List (String × List Byte) :=
  (path, writtenBytes files path ++ bytes) :: files.filter (fun f => f.1 ≠ path)

/-- A file opened for writing: "strictly append-only", so a file that is listed stays as it is, and one that is not holds
no word yet (R104; log entry 9). -/
def openForWriting (files : List (String × List Byte)) (path : String) : List (String × List Byte) :=
  if (files.lookup path).isSome then files else (path, []) :: files

/-! ### The environment's lines (R96, 92 D17) -/

/-- Pull one line of keyboard input: the next answer the environment has given, or a free value; none where no line
arrives. -/
def State.pullLine (s : State) : Option (List Byte) × State :=
  match s.inputs with
  | line :: later => (line, { s with inputs := later })
  | [] => (Config.keyboardLine s.config.kbdTimeout s.draws, { s with draws := s.draws + 1 })

/-! ### Reading a device -/

/-- The first two buffered bytes as a big-endian word, with the bytes left; a starved read gives 0x0000 and keeps the
buffer (R96 steps 2 and 3, R97). -/
def takeWord : List Byte → Word × List Byte
  | b0 :: b1 :: rest => (wordOfBytes b0 b1, rest)
  | short => (0x0000, short)

/-- The keyboard's buffer before the read: with fewer than two bytes it pulls a line (R96 step 1). -/
def State.refillKeyboard (s : State) (buffer : List Byte) : List Byte × State :=
  if buffer.length < 2 then (buffer ++ s.pullLine.1.getD [], s.pullLine.2) else (buffer, s)

/-- get_data of a readable device at (t, i): the word read, and the state after (R96, R97). -/
def State.getData (s : State) (t i : Byte) (d : Device) : Word × State :=
  let filled := if d.kind = .keyboard then s.refillKeyboard d.buffer else (d.buffer, s)
  let taken := takeWord filled.1
  (taken.1, filled.2.setBuffer t i taken.2)

/-- DevRead(t, i); then the rest, on the word read (R95). -/
def devRead (s : State) (t i : Byte) (rest : Word → State → State) : State :=
  match s.lookup t i with
  | none => s.raise (.deviceNotFound t i)
  | some d =>
    if d.kind.readable then rest (s.getData t i d).1 (s.getData t i d).2 else s.raise (.unreadableDevice t i)

/-! ### Writing a device -/

/-- put_data of a writable device at (t, i): a Display's or a disk's output event, and a disk's file (R99). -/
def State.putData (s : State) (t i : Byte) (d : Device) (w : Word) : State :=
  match d.kind with
  | .disk _ path =>
    State.emit { s with files := appendToFile s.files path [highByte w, lowByte w] } (.diskOut t i w)
  | .display => s.emit (.displayOut t i w)
  | .keyboard => s
  | .printer => s

/-- DevWrite(t, i, w); then the rest (R98). -/
def devWrite (s : State) (t i : Byte) (w : Word) (rest : State → State) : State :=
  match s.lookup t i with
  | none => s.raise (.deviceNotFound t i)
  | some d => if d.kind.writable then rest (s.putData t i d w) else s.raise (.unwritableDevice t i)

/-! ### Buffer control (R100) -/

/-- clean_buffer: the buffer is emptied. -/
def State.cleanBuffer (s : State) (t i : Byte) : State := s.setBuffer t i []

/-- append_buffer of a buffered device: a keyboard pulls a line, a disk reloads its backing file. Whether a disk's unread
rest stays in front is free (`Config.diskAppendKeepsRest`, log entry 10). -/
def State.appendBuffer (s : State) (t i : Byte) (d : Device) : State :=
  match d.kind with
  | .disk _ path =>
    s.setBuffer t i ((if Config.diskAppendKeepsRest then d.buffer else []) ++ fileBytes s.files path)
  | .keyboard => s.pullLine.2.setBuffer t i (d.buffer ++ s.pullLine.1.getD [])
  | .display => s
  | .printer => s

end Sys2Proof.Machine
end

