-- ==== Sys2Proof/Machine/DeviceIo.lean ====
section
/-! DEFINITION. Device input and output, opcodes D and E (46_io.md). -/

namespace Sys2Proof.Machine

/-- GET_DATA (R260). -/
def execGetData (t : Nibble) (i : Byte) (s : State) : Host.Outcome State Fault Refusal :=
  .next (devRead s (selectorCode t) i fun w s1 => (State.advance { s1 with ac := w }).done)

/-- PUT_DATA (R261). -/
def execPutData (t : Nibble) (i : Byte) (s : State) : Host.Outcome State Fault Refusal :=
  .next (devWrite s (selectorCode t) i s.ac fun s1 => s1.advance.done)

end Sys2Proof.Machine
end

