-- ==== Sys2Proof/Machine/Halt.lean ====
section
/-! DEFINITION. HALT, opcode C (45_halt.md). -/

namespace Sys2Proof.Machine

/-- HALT (R250): outside a software call the step returns false and nothing moves; inside one it returns from the call.
The operand is never read (R251). -/
def execHalt (_oi : Operand) (s : State) : Host.Outcome State Fault Refusal :=
  .next (match s.trap with
    | .running => s.stop
    | .inTrap r => (s.returnFromSoftwareCall r).done)

end Sys2Proof.Machine
end

