-- ==== Sys2Proof/Machine/Jumps.lean ====
section
/-! DEFINITION. The jumps, opcodes 0 to 2 (42_jumps.md). None writes a link register or saves a return address (R213). -/

namespace Sys2Proof.Machine

/-- IC <- OI, or the next word: a jump that is taken or not. -/
def jumpIf (taken : Bool) (oi : Operand) (s : State) : State :=
  if taken then { s with ic := operandWord oi } else s.advance

/-- JUMP (R210). -/
def execJump (oi : Operand) (s : State) : Host.Outcome State Fault Refusal :=
  .next (jumpIf true oi s).done

/-- JUMP_IF_ZERO (R211). -/
def execJumpIfZero (oi : Operand) (s : State) : Host.Outcome State Fault Refusal :=
  .next (jumpIf (aluIsZero s.ac) oi s).done

/-- JUMP_IF_NEG (R212). -/
def execJumpIfNeg (oi : Operand) (s : State) : Host.Outcome State Fault Refusal :=
  .next (jumpIf (aluIsNegative s.ac) oi s).done

end Sys2Proof.Machine
end

