-- ==== Sys2Proof/Machine/OsTrap.lean ====
section
/-! DEFINITION. The OS trap, opcode F, and its sub-codes (47_os_trap.md). The checks of each come in the order of R310. -/

namespace Sys2Proof.Machine

/-- The common end of the OS arm: IC <- trunc16(IC + 2), and the step continues (R281). -/
def osEnd (s : State) : State := s.advance.done

/-- OS 0xEE, print status (R282). -/
def execOsPrintStatus (argc : Nibble) (s : State) : Host.Outcome State Fault Refusal :=
  .next (
    if argc ≠ 0 then s.raise (.argumentCountMismatch 0xEE 0 argc)
    else if (s.config.statusCodes.lookup s.ac).isNone then s.raise (.invalidServiceSelector 0xEE s.ac)
    else osEnd (s.emit (.status s.ac)))

/-- OS 0xEF, software call (R286). -/
def execOsSoftwareCall (_argc : Nibble) (s : State) : Host.Outcome State Fault Refusal :=
  .next (osEnd s.enterSoftwareCall)

/-- The argument count each stack selector expects (R290). -/
def stackArgc (selector : Word) : Option Nibble :=
  match selector.toNat with
  | 0 => some 0
  | 1 => some 1
  | 2 => some 0
  | 3 => some 1
  | _ => none

/-- get-pointer (R291). -/
def stackGetPointer (s : State) : State :=
  readInto s spAddr fun s1 => osEnd { s1 with ac := s1.mdr }

/-- set-pointer (R292). -/
def stackSetPointer (s : State) : State :=
  popWord s fun s1 => writeFrom s1 spAddr s1.mdr osEnd

/-- get-stacktop (R293). -/
def stackGetTop (s : State) : State :=
  readInto s spAddr fun s1 => readInto s1 s1.mdr fun s2 => osEnd { s2 with ac := s2.mdr }

/-- set-stacktop (R294). -/
def stackSetTop (s : State) : State :=
  popWord s fun s1 => readInto s1 spAddr fun s2 => writeFrom s2 s2.mdr s1.mdr osEnd

/-- OS 0x57, the stack primitives: the selector is checked before the argument count (R290). -/
def execOsStack (argc : Nibble) (s : State) : Host.Outcome State Fault Refusal :=
  .next (
    match stackArgc s.ac with
    | none => s.raise (.invalidServiceSelector 0x57 s.ac)
    | some expected =>
      if argc ≠ expected then s.raise (.argumentCountMismatch 0x57 expected argc)
      else match s.ac.toNat with
        | 0 => stackGetPointer s
        | 1 => stackSetPointer s
        | 2 => stackGetTop s
        | _ => stackSetTop s)

/-- NOT of the word below MAR, into AC (R297). -/
def bitwiseOne (s : State) : State :=
  popWord s fun s1 => aluIntoAc s1 0xA s1.mdr 0 osEnd

/-- AND, OR or XOR of the two words below MAR, into AC (R298). -/
def bitwiseTwo (code : Nibble) (s : State) : State :=
  popWord s fun s1 => popWord s1 fun s2 => aluIntoAc s2 code s1.mdr s2.mdr osEnd

/-- OS 0x01, bitwise operations, selected by AC; the argument count is not checked (R296). -/
def execOsBitwise (_argc : Nibble) (s : State) : Host.Outcome State Fault Refusal :=
  .next (
    match s.ac.toNat with
    | 0 => bitwiseOne s
    | 1 => bitwiseTwo 0xB s
    | 2 => bitwiseTwo 0xC s
    | 3 => bitwiseTwo 0xD s
    | _ => s.raise (.invalidServiceSelector 0x01 s.ac))

/-- The service of OS 0x0D on a device that was found, selected by AC (R300). -/
def bufferService (s : State) (t i : Byte) (d : Device) : State :=
  match s.ac.toNat with
  | 0 =>
    if d.kind.buffered then osEnd ((s.cleanBuffer t i).emit (.bufferCleaned t i)) else s.raise (.noBuffer t i)
  | 1 =>
    if d.kind.buffered then osEnd ((s.appendBuffer t i d).emit (.bufferAppended t i)) else s.raise (.noBuffer t i)
  | _ => s.raise (.invalidServiceSelector 0x0D s.ac)

/-- OS 0x0D, device-buffer control: the word below MAR names the device, type code in its high byte (R300). -/
def execOsBufferControl (_argc : Nibble) (s : State) : Host.Outcome State Fault Refusal :=
  .next (popWord s fun s1 =>
    match s1.lookup (highByte s1.mdr) (lowByte s1.mdr) with
    | none => s1.raise (.deviceNotFound (highByte s1.mdr) (lowByte s1.mdr))
    | some d => bufferService s1 (highByte s1.mdr) (lowByte s1.mdr) d)

/-- OS 0x71, a delay of AC milliseconds, AC unsigned (R305). -/
def execOsDelay (_argc : Nibble) (s : State) : Host.Outcome State Fault Refusal :=
  .next (osEnd (s.emit (.delay s.ac.toNat)))

/-- OS with any other sub-code: a diagnostic, and no halt (R308). -/
def execOsUnknown (_argc : Nibble) (code : Byte) (s : State) : Host.Outcome State Fault Refusal :=
  .next (osEnd (s.emit (.unknownTrap code)))

end Sys2Proof.Machine
end

