-- ==== Sys2Proof/Machine/Subroutine.lean ====
section
/-! DEFINITION. Subroutine call and return, opcodes A and B (44_subroutine.md). MDR is the data path of both (92 D7). -/

namespace Sys2Proof.Machine

/-- SUBROUTINE (R240); the time interrupt's sentinel executes it with OI = 0x000 (60_exceptions.md R345). -/
def execSubroutine (oi : Operand) (s : State) : Host.Outcome State Fault Refusal :=
  .next (writeFrom s (operandWord oi) (s.ic + 2) fun s1 => State.done { s1 with ic := operandWord oi + 2 })

/-- RETURN (R241). -/
def execReturn (oi : Operand) (s : State) : Host.Outcome State Fault Refusal :=
  .next (readInto s (operandWord oi) fun s1 => State.done { s1 with ic := s1.mdr })

end Sys2Proof.Machine
end

