-- ==== Sys2Proof/Machine/Dispatch.lean ====
section
/-! DEFINITION. The instruction-dispatch multiplexer (41_cycle.md R194; 47_os_trap.md R280). -/

namespace Sys2Proof.Machine

def exec (i : Instr) (s : State) : Host.Outcome State Fault Refusal :=
  match i with
  | .jump oi => Sys2Proof.Machine.execJump oi s
  | .jumpIfZero oi => Sys2Proof.Machine.execJumpIfZero oi s
  | .jumpIfNeg oi => Sys2Proof.Machine.execJumpIfNeg oi s
  | .loadValue oi => Sys2Proof.Machine.execLoadValue oi s
  | .add oi => Sys2Proof.Machine.execAdd oi s
  | .sub oi => Sys2Proof.Machine.execSub oi s
  | .mul oi => Sys2Proof.Machine.execMul oi s
  | .div oi => Sys2Proof.Machine.execDiv oi s
  | .load oi => Sys2Proof.Machine.execLoad oi s
  | .memory oi => Sys2Proof.Machine.execMemory oi s
  | .subroutine oi => Sys2Proof.Machine.execSubroutine oi s
  | .ret oi => Sys2Proof.Machine.execReturn oi s
  | .halt oi => Sys2Proof.Machine.execHalt oi s
  | .getData t k => Sys2Proof.Machine.execGetData t k s
  | .putData t k => Sys2Proof.Machine.execPutData t k s
  | .osPrintStatus argc => Sys2Proof.Machine.execOsPrintStatus argc s
  | .osSoftwareCall argc => Sys2Proof.Machine.execOsSoftwareCall argc s
  | .osStack argc => Sys2Proof.Machine.execOsStack argc s
  | .osBitwise argc => Sys2Proof.Machine.execOsBitwise argc s
  | .osBufferControl argc => Sys2Proof.Machine.execOsBufferControl argc s
  | .osDelay argc => Sys2Proof.Machine.execOsDelay argc s
  | .osUnknown argc code => Sys2Proof.Machine.execOsUnknown argc code s

end Sys2Proof.Machine
end

