-- ==== Sys2Proof/Machine/Cycle.lean ====
section
/-! DEFINITION. The fetch-decode-execute cycle (41_cycle.md R190), and the state in which the next step runs a given
word. -/

namespace Sys2Proof.Machine

/-- Execute the instruction IR holds (R194). -/
def executePhase (s : State) : Host.Outcome State Fault Refusal := exec (decodeWord s.ir) s

/-- One cycle: fetch, then decode, then execute (R190). A fault in fetch ends it before decode (R191). -/
def runCycle (s : State) : Host.Outcome State Fault Refusal := fetchThen s fun s1 => executePhase s1.decodePhase

/-- The state with everything removed that would keep the next step from running the word at IC: a fault record, an IC
whose word is out of range (IC is set by the host's `run`, 70_reset_and_hazards.md R393), a pending time interrupt. After
reset nothing is. -/
def State.readyToFetch (s : State) : State :=
  { s with
    faultRecord := none
    ic := if wordInRange s.ic then s.ic else 0
    config := { s.config with tiEnabled := s.config.tiEnabled && !s.timeInterruptPending } }

/-- A word placed where the next step fetches it, as the host's load does (70_reset_and_hazards.md R390). -/
def State.withWordAtIc (s : State) (w : Word) : State :=
  { s.readyToFetch with mem := storeWord s.mem s.readyToFetch.ic.toNat w }

end Sys2Proof.Machine
end

