-- ==== Sys2Proof/Machine/Step.lean ====
section
/-! DEFINITION. The machine's only transition (41_cycle.md R190; 60_exceptions.md R331). -/

namespace Sys2Proof.Machine

/-- One step. A state with a fault record is terminal: no further step is taken from it (41_cycle.md R199, 92 D19), and
the step answers the recorded fault. -/
def step (s : State) : Host.Outcome State Fault Refusal :=
  match s.faultRecord with
  | some r => .fault r.fault
  | none => runCycle s

/-- The state with the instruction whose bits are `w` (numbered as spec/opcode_table.json numbers them) where the next
step fetches, so that the very next step runs it (log entry 13). -/
def State.withFetchWord (s : State) (nbits w : Nat) : State := s.withWordAtIc (tableWord nbits w)

end Sys2Proof.Machine
end

