-- ==== Sys2Proof/Machine/HostPort.lean ====
section
/-! DEFINITION. The host port: what the host does to the machine between steps (20_memory.md R76, R101 to R103;
70_reset_and_hazards.md R390 to R397). A fault of a host operation is answered to the host; only a step sets the fault
record (60_exceptions.md R331). -/

namespace Sys2Proof.Machine

/-! ### Byte and word access (20_memory.md R72, R73, R76) -/

/-- get_byte. -/
def hostGetByte (s : State) (a : Word) : Except Fault Byte :=
  if a.toNat ≤ 0xFFF then .ok (s.readByte a.toNat) else .error (.outOfRange a)

/-- set_byte. -/
def hostSetByte (s : State) (a : Word) (v : Byte) : Except Fault State :=
  if a.toNat ≤ 0xFFF then .ok { s with mem := Memory.write s.mem a.toNat v } else .error (.outOfRange a)

/-- get_word. -/
def hostGetWord (s : State) (a : Word) : Except Fault Word :=
  match s.readWord a with
  | some w => .ok w
  | none => .error (.outOfRange a)

/-- set_word. -/
def hostSetWord (s : State) (a v : Word) : Except Fault State :=
  match s.writeWord a v with
  | some s1 => .ok s1
  | none => .error (.outOfRange a)

/-! ### Load and dump (70_reset_and_hazards.md R390, R391, R396) -/

/-- An entry of a load has the two parts of a pair. -/
def isLoadPair (entry : List Word) : Bool := entry.length == 2

/-- The address of an entry cannot hold a word. -/
def loadOutOfRange (entry : List Word) : Bool := !wordInRange (entry.headD 0)

/-- One pair written as `set_word` does (R390). -/
def loadPair (m : Memory) (entry : List Word) : Memory := storeWord m (entry.headD 0).toNat (entry.getD 1 0)

/-- load: the whole sequence is checked, for arity and for range, before the first write; a failure writes nothing
(R391). DESIGN CHOICE, safe: arity is checked over the whole sequence before the ranges (log entry 15). -/
def hostLoad (s : State) (entries : List (List Word)) : Except Fault State :=
  match entries.findIdx? (fun e => !isLoadPair e) with
  | some k => .error (.malformedLoad k)
  | none =>
    match entries.find? loadOutOfRange with
    | some e => .error (.outOfRange (e.headD 0))
    | none => .ok { s with mem := entries.foldl loadPair s.mem }

/-- dump: the bytes Mem[first..last] (R396). DESIGN CHOICE, safe: the order of the two checks, and which bound an
OutOfRange names (log entry 15). -/
def hostDump (s : State) (first last : Word) : Except Fault (List Byte) :=
  if last.toNat < first.toNat then .error (.invalidDumpRange first last)
  else if 0xFFF < first.toNat then .error (.outOfRange first)
  else if 0xFFF < last.toNat then .error (.outOfRange last)
  else .ok ((List.range (last.toNat + 1 - first.toNat)).map fun k => s.readByte (first.toNat + k))

/-! ### Device management (20_memory.md R101, R102) -/

/-- A device as the host adds it: a disk opens its file, and a Disk(Read) is preloaded from it (R97). -/
def newDevice (s : State) (kind : DeviceKind) (id : Byte) : Device :=
  match kind with
  | .disk .read path => { kind := kind, id := id, buffer := fileBytes s.files path, handleOpen := true }
  | .disk .write _ => { kind := kind, id := id, buffer := [], handleOpen := true }
  | .keyboard => { kind := kind, id := id, buffer := [], handleOpen := false }
  | .display => { kind := kind, id := id, buffer := [], handleOpen := false }
  | .printer => { kind := kind, id := id, buffer := [], handleOpen := false }

/-- The files after a device is added: only a Disk(Write) opens one for writing (R104). -/
def filesWithDevice (files : List (String × List Byte)) (kind : DeviceKind) : List (String × List Byte) :=
  match kind with
  | .disk .write path => openForWriting files path
  | .disk .read _ => files
  | .keyboard => files
  | .display => files
  | .printer => files

/-- add: fails on a (type, identifier) pair already present (R102). -/
def hostAdd (s : State) (kind : DeviceKind) (id : Byte) : Except Fault State :=
  if s.devices.any (fun d => d.key == (kind.type, id)) then .error (.deviceAlreadyExists kind.type id)
  else .ok { s with devices := s.devices ++ [newDevice s kind id], files := filesWithDevice s.files kind }

/-- remove: no effect where the pair is absent (R102). -/
def hostRemove (s : State) (type : DeviceType) (id : Byte) : State :=
  { s with devices := s.devices.filter fun d => d.key ≠ (type, id) }

/-- close: releases the device's file handle; idempotent (R101). -/
def hostClose (s : State) (type : DeviceType) (id : Byte) : State :=
  { s with devices := s.devices.map fun d => if d.key = (type, id) then { d with handleOpen := false } else d }

/-- The host's configuration, set before a run (10_state.md R43; 70_reset_and_hazards.md R382). -/
def hostConfigure (s : State) (config : HostConfig) : State := { s with config := config }

/-- What the environment will answer to the next keyboard pulls (20_memory.md R96). -/
def hostSupplyInput (s : State) (lines : List (Option (List Byte))) : State := { s with inputs := s.inputs ++ lines }

/-- Reset of a machine that was in use: a new construction (60_exceptions.md R331; 70_reset_and_hazards.md R380) that keeps
the backing files, "the only state surviving process lifetime" (20_memory.md R104), and what the environment has yet to
answer. -/
def hostReconstruct (s : State) (config : HostConfig) (mar mdr ic ir ac : Word) : State :=
  { State.construct config s.files mar mdr ic ir ac with inputs := s.inputs, draws := s.draws }

/-! ### run (70_reset_and_hazards.md R393, R394) -/

/-- The three ends of a run (R394), each with the state it leaves, and the refusal that no arm of `exec` answers. -/
inductive RunEnd where
  /-- A step returned false: the only final end. -/
  | halted (s : State)
  /-- A step raised a fault, or the state was faulted already. -/
  | faulted (s : State)
  /-- The host's iteration cap was reached. -/
  | capExceeded (s : State)
  /-- A step was refused. -/
  | refused (r : Refusal)
  deriving DecidableEq, Repr

/-- The loop of `run`: at most `cap` steps (log entry 14). -/
def hostLoop : Nat → State → RunEnd
  | 0, s => .capExceeded s
  | n + 1, s =>
    match step s with
    | .next t =>
      match t.continues with
      | some true => hostLoop n t
      | some false => .halted t
      | none => .faulted t
    | .fault _ => .faulted s
    | .refused r => .refused r

/-- run(start_address): sets IC, changes nothing else, and loops (R393). -/
def hostRun (s : State) (start : Word) (cap : Nat) : RunEnd := hostLoop cap { s with ic := start }

end Sys2Proof.Machine
end

