-- ==== Sys2Proof/Safety.lean ====
section
/-! DEFINITION. What claims are stated in: a state without a fault, the invariant of the machine, the word two bytes
make, and runs of completed steps. -/

namespace Sys2Proof.Machine

/-- The state is faulted, so terminal (60_exceptions.md R331). -/
def State.faulted (s : State) : Prop := s.faultRecord ≠ none

/-- The step completes: it answers a state, and no fault was raised (41_cycle.md R190). -/
def CompletesTo (s t : State) : Prop := step s = .next t ∧ t.faultRecord = none

/-- `n` completed steps lead from one state to another. -/
inductive CompletedSteps : Nat → State → State → Prop where
  | zero (s : State) : CompletedSteps 0 s s
  | succ {n : Nat} {s t u : State} : CompletedSteps n s t → CompletesTo t u → CompletedSteps (n + 1) s u

/-- The big-endian word that the bytes at `a` and `a + 1` make (20_memory.md R72, R77). -/
def State.wordHere (s : State) (a : Nat) : Word := s.readByte a ++ s.readByte (a + 1)

/-- No time interrupt is pending (60_exceptions.md R341). -/
abbrev State.noInterrupt (s : State) : Prop := s.config.tiEnabled = false ∨ s.stepCount < s.config.tiLimit

/-- A time interrupt is pending (60_exceptions.md R341). -/
abbrev State.interruptDue (s : State) : Prop := s.config.tiEnabled = true ∧ s.config.tiLimit ≤ s.stepCount

/-- The state in which the execute phase of a step begins, when the word at IC is fetched and no interrupt is taken
(10_state.md R49). -/
def State.fetched (s : State) : State :=
  let w := s.wordHere s.ic.toNat
  { s with
    mar := s.ic, mdr := w, ir := w
    op := (w.extractLsb' 12 4).setWidth 16
    oi := (w.extractLsb' 0 12).setWidth 16
    stepCount := s.stepCount + 1 }

/-- What every step keeps, from any state: memory is in canonical form and within the 4096 cells (20_memory.md R70); no
two devices share a (type, identifier) pair (R90, R102); OP and OI are the fields of IR (10_state.md R35, R36); a fault
record goes with no return value and with the IC of the faulting step (41_cycle.md R199; 60_exceptions.md R331, R332). -/
def Inv (s : State) : Prop :=
  Memory.wf s.mem = true ∧
  (s.devices.map Device.key).Nodup ∧
  s.op = (s.ir.extractLsb' 12 4).setWidth 16 ∧
  s.oi = (s.ir.extractLsb' 0 12).setWidth 16 ∧
  (∀ r, s.faultRecord = some r → s.continues = none ∧ r.ic0 = s.ic)

end Sys2Proof.Machine
end

