-- ==== Sys2Proof/Certificates/Slice0/Obligations.lean ====
section
/-! DEFINITION. The statements for the provers. In each, a fault shows as the model shows it: the step answers the state
the faulting step leaves, with the fault record set and no return value (log entry 4); `exec` starts in the state the
execute phase starts in, so `s.ic` is IC0 and, in a step, `s.mar` is IC0 as well (10_state.md R49). -/

open Sys2Proof Sys2Proof.Machine

/-! ### Encoding -/

/-- 30_encoding.md R130, R137, R147: decoding the word of a well-formed instruction gives the instruction back. -/
def Obligations.DecodeOfEncode : Prop :=
  ∀ i : Instr, i.wellFormed = true → decodeWord (encode i) = i

/-- R138: every word is one instruction, and no bit of it is lost: the word of the instruction it decodes to is itself. -/
def Obligations.EncodeOfDecode : Prop :=
  ∀ w : Word, (decodeWord w).wellFormed = true ∧ encode (decodeWord w) = w

/-- R130; 20_memory.md R77: an instruction is one word of two bytes, the high byte first; fewer bytes are refused by
name, and what follows is left. -/
def Obligations.DecodeReadsTwoBytes : Prop :=
  (∀ (hi lo : Byte) (rest : List Byte), decode (hi :: lo :: rest) = .ok (decodeWord (hi ++ lo), rest)) ∧
  (∀ bytes : List Byte, bytes.length < 2 → decode bytes = .error (.truncated bytes.length))

/-- R147's worked examples, R144's sentinel and rows of 95_test_vectors.md 2.1. -/
def Obligations.WordsOfTheSpecDecode : Prop :=
  decodeWord 0x3005 = .loadValue 0x005 ∧ decodeWord 0x9100 = .memory 0x100 ∧ decodeWord 0x0000 = .jump 0x000 ∧
  decodeWord 0xD209 = .getData 2 9 ∧ decodeWord 0xF0EF = .osSoftwareCall 0 ∧ decodeWord 0xA000 = .subroutine 0x000 ∧
  decodeWord 0xCABC = .halt 0xABC ∧ decodeWord 0xE302 = .putData 3 2 ∧ decodeWord 0xF1EE = .osPrintStatus 1 ∧
  decodeWord 0xF000 = .osUnknown 0 0 ∧ decodeWord 0x7FFF = .div 0xFFF

/-- R139, 45_halt.md R251 (92 D30): HALT's operand, and the argument count of OS 0xEF, 0x01, 0x0D, 0x71 and of unknown
codes, change nothing. -/
def Obligations.IgnoredOperandBits : Prop :=
  (∀ oi oi' s, exec (.halt oi) s = exec (.halt oi') s) ∧
  ∀ (n n' : Nibble) (s : State),
    exec (.osSoftwareCall n) s = exec (.osSoftwareCall n') s ∧ exec (.osBitwise n) s = exec (.osBitwise n') s ∧
    exec (.osBufferControl n) s = exec (.osBufferControl n') s ∧ exec (.osDelay n) s = exec (.osDelay n') s ∧
    ∀ code, exec (.osUnknown n code) s = exec (.osUnknown n' code) s

/-! ### The cycle -/

/-- 41_cycle.md R190, R191, R192, R194; 10_state.md R49: when the bytes at IC decode to an instruction and no time
interrupt is pending, the step is that instruction executed in the fetched state (MAR is IC, MDR and IR the word, OP and OI
its fields, StepCount one more). -/
def Obligations.StepRunsDecodedInstruction : Prop :=
  ∀ (s : State) (i : Instr) (rest : List Byte),
    s.faultRecord = none → s.ic.toNat ≤ 0xFFE → s.noInterrupt →
    decode [s.readByte s.ic.toNat, s.readByte (s.ic.toNat + 1)] = .ok (i, rest) →
    step s = exec i s.fetched

/-- 41_cycle.md R191, 60_exceptions.md R342: an IC above 0xFFE faults in fetch, before decode, whether or not a time
interrupt is pending; only MAR is written, and StepCount does not move. -/
def Obligations.FetchOutOfRangeEndsTheStep : Prop :=
  ∀ s : State, s.faultRecord = none → 0xFFE < s.ic.toNat →
    step s = .next { s with mar := s.ic, faultRecord := some ⟨.outOfRange s.ic, s.ic⟩, continues := none }

/-- 60_exceptions.md R345, 41_cycle.md R192: a pending time interrupt runs SUBROUTINE 0x000 in place of the word at IC:
IC + 2 is saved at 0x000, control goes to 0x002, StepCount becomes 1, and nothing of the displaced instruction happens.
That MDR ends as IC + 2 follows these rules and not a row of the test vectors (log entry 12). -/
def Obligations.TimeInterruptEntry : Prop :=
  ∀ s : State, s.faultRecord = none → s.ic.toNat ≤ 0xFFE → s.interruptDue → Memory.wf s.mem = true →
    ∃ t, step s = .next t ∧
      t = { s with
          mar := 0, mdr := s.ic + 2, ic := 0x002, ir := 0xA000, op := 0xA, oi := 0, stepCount := 1,
          mem := t.mem, continues := some true } ∧
      t.wordHere 0 = s.ic + 2 ∧ ∀ a, a ≠ 0 → a ≠ 1 → t.readByte a = s.readByte a

/-- 10_state.md R42, 41_cycle.md R191, R192: StepCount moves only in decode, whatever the instruction: it stays on a fetch
fault, is 1 after an injection, and otherwise grows by one. -/
def Obligations.StepCountMovesOnlyInDecode : Prop :=
  ∀ s t : State, step s = .next t →
    (0xFFE < s.ic.toNat → t.stepCount = s.stepCount) ∧
    (s.ic.toNat ≤ 0xFFE → s.noInterrupt → t.stepCount = s.stepCount + 1) ∧
    (s.ic.toNat ≤ 0xFFE → s.interruptDue → t.stepCount = 1)

/-- 41_cycle.md R199, 60_exceptions.md R331 (92 D19): a faulted state is terminal; its step answers the recorded fault. -/
def Obligations.FaultedStateTakesNoStep : Prop :=
  ∀ (s : State) (r : FaultRecord), s.faultRecord = some r → step s = .fault r.fault

/-- 41_cycle.md R190, 30_encoding.md R138: from every state without a fault record a step answers a state; no word is
refused. -/
def Obligations.EveryUnfaultedStepAnswersAState : Prop :=
  ∀ s : State, s.faultRecord = none → ∃ t, step s = .next t

/-- 41_cycle.md R198: the step returns false exactly when HALT executes with TrapState = Running, and true after every
other completed step. -/
def Obligations.ReturnsFalseExactlyOnTrueHalt : Prop :=
  ∀ s t : State, step s = .next t →
    (t.continues = some false ↔
      s.ic.toNat ≤ 0xFFE ∧ s.noInterrupt ∧ s.trap = .running ∧
        ∃ oi, decodeWord (s.wordHere s.ic.toNat) = .halt oi) ∧
    (t.faultRecord = none → t.continues ≠ some false → t.continues = some true)

/-- 60_exceptions.md R331, R332: a faulting step changes no memory byte, no device, file, event or environment field,
neither AC nor IC nor TrapState; it records the fault with the IC of the step. -/
def Obligations.FaultingStepIsPrecise : Prop :=
  ∀ s t : State, step s = .next t → t.faultRecord ≠ none →
    t = { s with
        mar := t.mar, mdr := t.mdr, ir := t.ir, op := t.op, oi := t.oi, stepCount := t.stepCount,
        faultRecord := t.faultRecord, continues := none } ∧
    ∃ f, t.faultRecord = some ⟨f, s.ic⟩

/-- Every step keeps the invariant: memory canonical and within 0x000..0xFFF (20_memory.md R70), no two devices with one
(type, identifier) pair (R90, R102), OP and OI the fields of IR (10_state.md R35, R36), a fault record only with no return
value and with the state's IC (60_exceptions.md R332). -/
def Obligations.InvariantKeptByEveryStep : Prop :=
  ∀ s t : State, Inv s → step s = .next t → Inv t

/-- The invariant holds after construction, for every configuration, every set of files and every draw of MAR, MDR, IC, IR
and AC (10_state.md R50), and so at reset. R50 leaves OP and OI unspecified too: that they are the fields of IR already
then is the model's choice (log entry 2), which follows R35 and R36. -/
def Obligations.InvariantHoldsAfterConstruction : Prop :=
  (∀ config files mar mdr ic ir ac, Inv (State.construct config files mar mdr ic ir ac)) ∧ Inv State.reset

/-! ### Who writes what -/

/-- 10_state.md R40: only OS 0xEF and a HALT inside a software call change TrapState. -/
def Obligations.TrapStateWrittenOnlyByCallAndReturn : Prop :=
  ∀ (i : Instr) (s t : State), exec i s = .next t → t.trap ≠ s.trap →
    (∃ argc, i = .osSoftwareCall argc ∧ t.trap = .inTrap (s.ic + 2)) ∨
    (∃ oi r, i = .halt oi ∧ s.trap = .inTrap r ∧ t.trap = .running)

/-- 20_memory.md R78: only MEMORY, SUBROUTINE and the setting primitives of OS 0x57 write memory, and only the word each
addresses. -/
def Obligations.MemoryWrittenOnlyByStores : Prop :=
  ∀ (i : Instr) (s t : State) (a : Nat), exec i s = .next t → t.readByte a ≠ s.readByte a →
    (∃ oi, (i = .memory oi ∨ i = .subroutine oi) ∧ (a = oi.toNat ∨ a = oi.toNat + 1)) ∨
    (∃ argc, i = .osStack argc ∧
      ((s.ac = 1 ∧ (a = 0xFFE ∨ a = 0xFFF)) ∨
       (s.ac = 3 ∧ (a = (s.wordHere 0xFFE).toNat ∨ a = (s.wordHere 0xFFE).toNat + 1))))

/-- 10_state.md R37: the writers of AC. -/
def Obligations.AccumulatorWrittenOnlyBy : Prop :=
  ∀ (i : Instr) (s t : State), exec i s = .next t → t.ac ≠ s.ac →
    (∃ oi, i = .loadValue oi ∨ i = .add oi ∨ i = .sub oi ∨ i = .mul oi ∨ i = .div oi ∨ i = .load oi) ∨
    (∃ dt k, i = .getData dt k) ∨
    (∃ argc, (i = .osStack argc ∧ (s.ac = 0 ∨ s.ac = 2)) ∨ i = .osBitwise argc)

/-- 10_state.md R31 to R36, R39, R43 (92 D5, D7): in the execute phase only the memory-operand opcodes and OS 0x57, 0x01
and 0x0D write MAR or MDR; no instruction writes IR, OP, OI, StepCount or the host's configuration. -/
def Obligations.OtherRegistersWrittenOnlyBy : Prop :=
  ∀ (i : Instr) (s t : State), exec i s = .next t →
    (t.mar ≠ s.mar ∨ t.mdr ≠ s.mdr →
      (∃ oi, i = .add oi ∨ i = .sub oi ∨ i = .mul oi ∨ i = .div oi ∨ i = .load oi ∨ i = .memory oi ∨
        i = .subroutine oi ∨ i = .ret oi) ∨
      (∃ argc, i = .osStack argc ∨ i = .osBitwise argc ∨ i = .osBufferControl argc)) ∧
    t.ir = s.ir ∧ t.op = s.op ∧ t.oi = s.oi ∧ t.stepCount = s.stepCount ∧ t.config = s.config

/-- 20_memory.md R99, R104: the output history only grows, by at most one event a step, and the backing files only by the
words of DiskOut events: a step without one changes no file, and a step with one appends its word, high byte first, to the
file of that Disk(Write), and changes no other file. An unlisted path is a file with no word (log entry 9). -/
def Obligations.EventsOnlyAppended : Prop :=
  ∀ s t : State, step s = .next t →
    (t.events = s.events ∧ t.files = s.files) ∨
    ∃ e, t.events = s.events ++ [e] ∧
      ((∀ dt k w, e ≠ .diskOut dt k w) → t.files = s.files) ∧
      ∀ dt k w, e = .diskOut dt k w →
        ∃ d path, s.lookup dt k = some d ∧ d.kind = .disk .write path ∧
          t.files.lookup path =
            some ((s.files.lookup path).getD [] ++ [w.extractLsb' 8 8, w.extractLsb' 0 8]) ∧
          ∀ p, p ≠ path → t.files.lookup p = s.files.lookup p

/-- 20_memory.md R102, R103; 10_state.md R46: a step adds, removes, reorders and closes no device; it changes nothing of
one but its buffer. -/
def Obligations.DeviceTableFixedBySteps : Prop :=
  ∀ s t : State, step s = .next t →
    t.devices.map (fun d => (d.kind, d.id, d.handleOpen)) = s.devices.map fun d => (d.kind, d.id, d.handleOpen)

/-! ### Over several steps -/

/-- 41_cycle.md R200: with the time interrupt enabled and a limit L of at least 1, from StepCount = 0 the first L steps
take no interrupt and the step after them does; from a step that takes one, the next L - 1 do not and the one after them
does. Steps that fault are not counted, so every step here completes. -/
def Obligations.TimeInterruptPeriod : Prop :=
  ∀ (s t : State) (n : Nat), s.config.tiEnabled = true → 1 ≤ s.config.tiLimit → CompletedSteps n s t →
    (s.stepCount = 0 → (n < s.config.tiLimit → t.noInterrupt) ∧ (n = s.config.tiLimit → t.interruptDue)) ∧
    (s.interruptDue → (0 < n → n < s.config.tiLimit → t.noInterrupt) ∧ (n = s.config.tiLimit → t.interruptDue))

/-- 70_reset_and_hazards.md R395, 45_halt.md R250: a step after a halted one halts again, and only StepCount grows. -/
def Obligations.HaltedMachineHaltsAgain : Prop :=
  ∀ s t : State, step s = .next t → t.continues = some false → t.noInterrupt →
    step t = .next { t with stepCount := t.stepCount + 1 }

/-- The word placed by `withFetchWord` is the word the very next step executes, from any state whose memory is canonical
(log entry 13; 70_reset_and_hazards.md R390). -/
def Obligations.WordPlacedAtIcRunsNext : Prop :=
  ∀ (s : State) (w : Word), Memory.wf s.mem = true →
    step (s.withFetchWord 16 w.toNat) = exec (decodeWord w) (s.withFetchWord 16 w.toNat).fetched

/-! ### Memory -/

/-- 20_memory.md R73, R74, R77: a word stored at any address up to 0xFFE, odd ones too, reads back, its high byte at the
lower address, and every other byte is as before. -/
def Obligations.StoredWordReadsBack : Prop :=
  ∀ (s : State) (a v : Word), Memory.wf s.mem = true → a.toNat ≤ 0xFFE →
    ∃ t, s.writeWord a v = some t ∧ t = { s with mem := t.mem } ∧ t.readWord a = some v ∧
      t.readByte a.toNat = v.extractLsb' 8 8 ∧ t.readByte (a.toNat + 1) = v.extractLsb' 0 8 ∧
      (∀ b, b ≠ a.toNat → b ≠ a.toNat + 1 → t.readByte b = s.readByte b) ∧ Memory.wf t.mem = true

/-- 20_memory.md R75: a word access at 0xFFF or above raises OutOfRange with the base address, for an instruction's read
and write alike and for the host's get_word and set_word. -/
def Obligations.WordAccessOutOfRangeFaults : Prop :=
  ∀ (s : State) (a v : Word) (rest : State → State), 0xFFF ≤ a.toNat →
    hostGetWord s a = .error (.outOfRange a) ∧ hostSetWord s a v = .error (.outOfRange a) ∧
    readInto s a rest = State.raise { s with mar := a } (.outOfRange a) ∧
    writeFrom s a v rest = State.raise { s with mar := a, mdr := v } (.outOfRange a)

/-! ### The ALU -/

/-- 40_alu.md R168, R169 (92 D4): the quotient is the two's-complement one, truncated towards zero and wrapped to 16 bits;
a divisor of zero raises DivisionByZero with the dividend. -/
def Obligations.DivisionTruncatesTowardsZero : Prop :=
  ∀ a b : Word,
    (b ≠ 0 → aluDivide a b = .ok (BitVec.ofInt 16 (a.toInt.tdiv b.toInt))) ∧
    (b = 0 → aluDivide a b = .error (.divisionByZero a))

/-- 40_alu.md R161: the ALU's contract. A code outside the set fails with InvalidInstruction, an operand outside
0..0xFFFF with InvalidOperand, and a call with neither gives a value or is a division by zero. Where code and operand are
both bad, either fault is allowed here: the order of the two checks is the model's choice (log entry 18). That every other
call gives a value rests on R160 and R163 to R171. -/
def Obligations.AluContract : Prop :=
  ∀ code a b : Int,
    (code ∉ [1, 2, 4, 5, 6, 7, 0xA, 0xB, 0xC, 0xD] →
      aluExecute code a b = .error (.invalidInstruction code) ∨
      ∃ v, (v = a ∨ v = b) ∧ (v < 0 ∨ 0xFFFF < v) ∧ aluExecute code a b = .error (.invalidOperand v)) ∧
    (code ∈ [1, 2, 4, 5, 6, 7, 0xA, 0xB, 0xC, 0xD] → (a < 0 ∨ 0xFFFF < a) ∨ (b < 0 ∨ 0xFFFF < b) →
      ∃ v, (v = a ∨ v = b) ∧ (v < 0 ∨ 0xFFFF < v) ∧ aluExecute code a b = .error (.invalidOperand v)) ∧
    (code ∈ [1, 2, 4, 5, 6, 7, 0xA, 0xB, 0xC, 0xD] → 0 ≤ a → a ≤ 0xFFFF → 0 ≤ b → b ≤ 0xFFFF →
      (∃ v, aluExecute code a b = .ok v) ∨ (code = 7 ∧ b = 0))

/-! ### Jumps -/

/-- 42_jumps.md R210: IC becomes the target and nothing else changes; after a jump to 0xFFF the next fetch faults. -/
def Obligations.JumpSetsIc : Prop :=
  (∀ (oi : Operand) (s : State), exec (.jump oi) s = .next { s with ic := oi.setWidth 16, continues := some true }) ∧
  ∀ s t : State, s.faultRecord = none → exec (.jump 0xFFF) s = .next t →
    step t = .next { t with mar := 0xFFF, faultRecord := some ⟨.outOfRange 0xFFF, 0xFFF⟩, continues := none }

/-- 42_jumps.md R211; not taken at 0xFFE, the next fetch faults. -/
def Obligations.JumpIfZeroTestsAc : Prop :=
  ∀ (oi : Operand) (s : State),
    (s.ac = 0x0000 →
      exec (.jumpIfZero oi) s = .next { s with ic := oi.setWidth 16, continues := some true }) ∧
    (s.ac ≠ 0x0000 →
      exec (.jumpIfZero oi) s = .next { s with ic := s.ic + 2, continues := some true }) ∧
    (s.ac ≠ 0x0000 → s.ic = 0xFFE → s.faultRecord = none → ∀ t, exec (.jumpIfZero oi) s = .next t →
      step t = .next { t with mar := 0x1000, faultRecord := some ⟨.outOfRange 0x1000, 0x1000⟩, continues := none })

/-- 42_jumps.md R212. -/
def Obligations.JumpIfNegTestsBit15 : Prop :=
  ∀ (oi : Operand) (s : State),
    (0x8000 ≤ s.ac.toNat →
      exec (.jumpIfNeg oi) s = .next { s with ic := oi.setWidth 16, continues := some true }) ∧
    (s.ac.toNat < 0x8000 →
      exec (.jumpIfNeg oi) s = .next { s with ic := s.ic + 2, continues := some true })

/-! ### Accumulator and memory -/

/-- 43_accumulator_memory.md R220. -/
def Obligations.LoadValueZeroExtends : Prop :=
  ∀ (oi : Operand) (s : State),
    exec (.loadValue oi) s =
      .next { s with ac := BitVec.ofNat 16 oi.toNat, ic := s.ic + 2, continues := some true }

/-- 43_accumulator_memory.md R221, R222, R223: the sum, the difference and the product modulo 65536, of AC and the word at
OI; OutOfRange(0xFFF), with AC and IC unchanged and MAR written, when OI = 0xFFF. -/
def Obligations.AddSubMulWrap : Prop :=
  ∀ (oi : Operand) (s : State),
    (oi ≠ 0xFFF →
      exec (.add oi) s = .next { s with
          mar := oi.setWidth 16, mdr := s.wordHere oi.toNat,
          ac := BitVec.ofNat 16 (s.ac.toNat + (s.wordHere oi.toNat).toNat), ic := s.ic + 2,
          continues := some true } ∧
      exec (.sub oi) s = .next { s with
          mar := oi.setWidth 16, mdr := s.wordHere oi.toNat,
          ac := BitVec.ofInt 16 (s.ac.toNat - (s.wordHere oi.toNat).toNat), ic := s.ic + 2,
          continues := some true } ∧
      exec (.mul oi) s = .next { s with
          mar := oi.setWidth 16, mdr := s.wordHere oi.toNat,
          ac := BitVec.ofNat 16 (s.ac.toNat * (s.wordHere oi.toNat).toNat), ic := s.ic + 2,
          continues := some true }) ∧
    (oi = 0xFFF → ∀ i ∈ [Instr.add oi, Instr.sub oi, Instr.mul oi],
      exec i s = .next { s with mar := 0xFFF, faultRecord := some ⟨.outOfRange 0xFFF, s.ic⟩, continues := none })

/-- 43_accumulator_memory.md R224; 40_alu.md R168, R169 (92 D4): the signed truncated quotient, or DivisionByZero with AC
and IC unchanged and MAR and MDR written, or OutOfRange(0xFFF). -/
def Obligations.DivDividesOrFaults : Prop :=
  ∀ (oi : Operand) (s : State),
    (oi ≠ 0xFFF → s.wordHere oi.toNat ≠ 0 →
      exec (.div oi) s = .next { s with
          mar := oi.setWidth 16, mdr := s.wordHere oi.toNat,
          ac := BitVec.ofInt 16 (s.ac.toInt.tdiv (s.wordHere oi.toNat).toInt), ic := s.ic + 2,
          continues := some true }) ∧
    (oi ≠ 0xFFF → s.wordHere oi.toNat = 0 →
      exec (.div oi) s = .next { s with
          mar := oi.setWidth 16, mdr := 0, faultRecord := some ⟨.divisionByZero s.ac, s.ic⟩, continues := none }) ∧
    (oi = 0xFFF →
      exec (.div oi) s = .next { s with
          mar := 0xFFF, faultRecord := some ⟨.outOfRange 0xFFF, s.ic⟩, continues := none })

/-- 43_accumulator_memory.md R226. -/
def Obligations.LoadReadsTheWord : Prop :=
  ∀ (oi : Operand) (s : State),
    (oi ≠ 0xFFF →
      exec (.load oi) s = .next { s with
          mar := oi.setWidth 16, mdr := s.wordHere oi.toNat, ac := s.wordHere oi.toNat, ic := s.ic + 2,
          continues := some true }) ∧
    (oi = 0xFFF →
      exec (.load oi) s = .next { s with
          mar := 0xFFF, faultRecord := some ⟨.outOfRange 0xFFF, s.ic⟩, continues := none })

/-- 43_accumulator_memory.md R227: AC is stored at OI, high byte first, and no other byte changes; nothing is stored when
OI = 0xFFF. -/
def Obligations.MemoryStoresAc : Prop :=
  ∀ (oi : Operand) (s : State),
    (Memory.wf s.mem = true → oi ≠ 0xFFF →
      ∃ t, exec (.memory oi) s = .next t ∧
        t = { s with mar := oi.setWidth 16, mdr := s.ac, mem := t.mem, ic := s.ic + 2, continues := some true } ∧
        t.readByte oi.toNat = s.ac.extractLsb' 8 8 ∧ t.readByte (oi.toNat + 1) = s.ac.extractLsb' 0 8 ∧
        ∀ a, a ≠ oi.toNat → a ≠ oi.toNat + 1 → t.readByte a = s.readByte a) ∧
    (oi = 0xFFF →
      exec (.memory oi) s = .next { s with
          mar := 0xFFF, mdr := s.ac, faultRecord := some ⟨.outOfRange 0xFFF, s.ic⟩, continues := none })

/-! ### Subroutines -/

/-- 44_subroutine.md R240 (92 D7: MDR is the data path): the address of the next word is stored at OI and control goes to
OI + 2; nothing is stored when OI = 0xFFF. -/
def Obligations.SubroutineSavesReturnWord : Prop :=
  ∀ (oi : Operand) (s : State),
    (Memory.wf s.mem = true → oi ≠ 0xFFF →
      ∃ t, exec (.subroutine oi) s = .next t ∧
        t = { s with
            mar := oi.setWidth 16, mdr := s.ic + 2, mem := t.mem, ic := oi.setWidth 16 + 2,
            continues := some true } ∧
        t.wordHere oi.toNat = s.ic + 2 ∧
        ∀ a, a ≠ oi.toNat → a ≠ oi.toNat + 1 → t.readByte a = s.readByte a) ∧
    (oi = 0xFFF →
      exec (.subroutine oi) s = .next { s with
          mar := 0xFFF, mdr := s.ic + 2, faultRecord := some ⟨.outOfRange 0xFFF, s.ic⟩, continues := none })

/-- 44_subroutine.md R241 (92 D7: MDR is the data path). -/
def Obligations.ReturnLoadsIc : Prop :=
  ∀ (oi : Operand) (s : State),
    (oi ≠ 0xFFF →
      exec (.ret oi) s = .next { s with
          mar := oi.setWidth 16, mdr := s.wordHere oi.toNat, ic := s.wordHere oi.toNat, continues := some true }) ∧
    (oi = 0xFFF →
      exec (.ret oi) s = .next { s with
          mar := 0xFFF, faultRecord := some ⟨.outOfRange 0xFFF, s.ic⟩, continues := none })

/-- 44_subroutine.md R242: RETURN through a subroutine's return word, where no store has changed it, goes to the word
after the call. -/
def Obligations.ReturnComesBackBehindTheCall : Prop :=
  ∀ (oi : Operand) (s t u : State), Memory.wf s.mem = true → oi ≠ 0xFFF → exec (.subroutine oi) s = .next t →
    u.wordHere oi.toNat = t.wordHere oi.toNat →
    ∃ v, exec (.ret oi) u = .next v ∧ v.ic = s.ic + 2 ∧ v.continues = some true

/-! ### HALT and the software call -/

/-- 45_halt.md R250, R251 (92 D23: IC stays): outside a software call HALT returns false and changes nothing; inside one
it returns from it. -/
def Obligations.HaltStopsOrReturns : Prop :=
  ∀ (oi : Operand) (s : State),
    (s.trap = .running → exec (.halt oi) s = .next { s with continues := some false }) ∧
    ∀ r, s.trap = .inTrap r →
      exec (.halt oi) s = .next { s with ic := r, trap := .running, continues := some true }

/-- 47_os_trap.md R286: the address of the next word is saved in TrapState, whatever was there, and control goes to AC;
AC = 0 and AC = 1 wrap and come out as 0 and 1. With AC above 0xFFE the next fetch faults. -/
def Obligations.SoftwareCallEntersAtAc : Prop :=
  ∀ (argc : Nibble) (s : State),
    exec (.osSoftwareCall argc) s =
      .next { s with trap := .inTrap (s.ic + 2), ic := s.ac, continues := some true } ∧
    (0xFFE < s.ac.toNat → s.faultRecord = none → ∀ t, exec (.osSoftwareCall argc) s = .next t →
      step t = .next { t with mar := s.ac, faultRecord := some ⟨.outOfRange s.ac, s.ac⟩, continues := none })

/-- 47_os_trap.md R287, 60_exceptions.md R351: the first HALT after a software call returns behind that call, even where
the call was made inside another one, and a second HALT then stops. -/
def Obligations.HaltReturnsFromTheLastCall : Prop :=
  ∀ (argc : Nibble) (oi oi' : Operand) (s t u : State), exec (.osSoftwareCall argc) s = .next t → u.trap = t.trap →
    ∃ v, exec (.halt oi) u = .next v ∧ v.ic = s.ic + 2 ∧ v.trap = .running ∧ v.continues = some true ∧
      ∀ x : State, x.trap = v.trap → ∃ y, exec (.halt oi') x = .next y ∧ y.continues = some false ∧ y.ic = x.ic

/-! ### Devices -/

/-- 46_io.md R260, 20_memory.md R94 to R97 (92 D7, D17): GET_DATA of a readable device. A keyboard with fewer than two
bytes first pulls the environment's line; then two bytes are taken big-endian, or the read is starved, AC is 0 and the
buffer is kept. Nothing else changes, no other device's buffer either. That a disk whose handle was closed reads as before
is the model's choice (log entry 16). -/
def Obligations.GetDataReadsTheDevice : Prop :=
  ∀ (dt : Nibble) (k : Byte) (s : State) (d : Device),
    s.lookup (dt.setWidth 8) k = some d → d.kind.readable = true →
    ∃ (u : State) (filled : List Byte),
      exec (.getData dt k) s = .next u ∧
      u = { s with
          ac := u.ac, ic := s.ic + 2, devices := u.devices, inputs := u.inputs, draws := u.draws,
          continues := some true } ∧
      (d.kind = .keyboard ∧ d.buffer.length < 2 →
        filled = d.buffer ++ s.pullLine.1.getD [] ∧ u.inputs = s.pullLine.2.inputs ∧ u.draws = s.pullLine.2.draws) ∧
      (¬ (d.kind = .keyboard ∧ d.buffer.length < 2) →
        filled = d.buffer ∧ u.inputs = s.inputs ∧ u.draws = s.draws) ∧
      (∀ b0 b1 rest, filled = b0 :: b1 :: rest →
        u.ac = b0 ++ b1 ∧ u.lookup (dt.setWidth 8) k = some { d with buffer := rest }) ∧
      (filled.length < 2 → u.ac = 0 ∧ u.lookup (dt.setWidth 8) k = some { d with buffer := filled }) ∧
      ∀ t' k', (t', k') ≠ (dt.setWidth 8, k) → u.lookup t' k' = s.lookup t' k'

/-- 46_io.md R261, 20_memory.md R98, R99, R104: PUT_DATA to a Display is an output event; to a Disk(Write) it is one and
appends AC to the backing file, high byte first. That a disk whose handle was closed is written as before is the model's
choice (log entry 16), and so is that another path is another file and an unlisted one holds no word (log entry 9). -/
def Obligations.PutDataWritesTheDevice : Prop :=
  ∀ (dt : Nibble) (k : Byte) (s : State) (d : Device), s.lookup (dt.setWidth 8) k = some d →
    (d.kind = .display →
      exec (.putData dt k) s = .next { s with
          events := s.events ++ [.displayOut (dt.setWidth 8) k s.ac], ic := s.ic + 2, continues := some true }) ∧
    ∀ path, d.kind = .disk .write path →
      ∃ u, exec (.putData dt k) s = .next u ∧
        u = { s with
            files := u.files, events := s.events ++ [.diskOut (dt.setWidth 8) k s.ac], ic := s.ic + 2,
            continues := some true } ∧
        u.files.lookup path =
          some ((s.files.lookup path).getD [] ++ [s.ac.extractLsb' 8 8, s.ac.extractLsb' 0 8]) ∧
        ∀ p, p ≠ path → u.files.lookup p = s.files.lookup p

/-- 46_io.md R260, R261; 20_memory.md R91, R94, R95, R98: no such device; a Display, a Printer or a Disk(Write) is not
readable; a Keyboard, a Printer or a Disk(Read) is not writable. AC and IC are unchanged and there is no event. A disk whose
handle was closed faults as before (log entry 16). -/
def Obligations.DeviceInstructionsFault : Prop :=
  ∀ (dt : Nibble) (k : Byte) (s : State),
    (s.lookup (dt.setWidth 8) k = none →
      ∀ i ∈ [Instr.getData dt k, Instr.putData dt k],
        exec i s = .next { s with
            faultRecord := some ⟨.deviceNotFound (dt.setWidth 8) k, s.ic⟩, continues := none }) ∧
    ∀ d, s.lookup (dt.setWidth 8) k = some d →
      ((d.kind = .display ∨ d.kind = .printer ∨ ∃ path, d.kind = .disk .write path) →
        exec (.getData dt k) s = .next { s with
            faultRecord := some ⟨.unreadableDevice (dt.setWidth 8) k, s.ic⟩, continues := none }) ∧
      ((d.kind = .keyboard ∨ d.kind = .printer ∨ ∃ path, d.kind = .disk .read path) →
        exec (.putData dt k) s = .next { s with
            faultRecord := some ⟨.unwritableDevice (dt.setWidth 8) k, s.ic⟩, continues := none })

/-! ### The OS trap -/

/-- 47_os_trap.md R282 (92 D13): the argument count is checked first, then AC against STATUS_CODES. -/
def Obligations.PrintStatusChecksThenEmits : Prop :=
  ∀ (argc : Nibble) (s : State),
    (argc ≠ 0 →
      exec (.osPrintStatus argc) s = .next { s with
          faultRecord := some ⟨.argumentCountMismatch 0xEE 0 argc, s.ic⟩, continues := none }) ∧
    (argc = 0 → (∀ p ∈ s.config.statusCodes, p.1 ≠ s.ac) →
      exec (.osPrintStatus argc) s = .next { s with
          faultRecord := some ⟨.invalidServiceSelector 0xEE s.ac, s.ic⟩, continues := none }) ∧
    (argc = 0 → (∃ p ∈ s.config.statusCodes, p.1 = s.ac) →
      exec (.osPrintStatus argc) s = .next { s with
          events := s.events ++ [.status s.ac], ic := s.ic + 2, continues := some true })

/-- 47_os_trap.md R291, R293 (92 D8, D9): get-pointer reads the word at 0x0FFE; get-stacktop reads the word it points to,
or faults OutOfRange on a pointer above 0xFFE. -/
def Obligations.StackGetters : Prop :=
  ∀ s : State,
    (s.ac = 0 →
      exec (.osStack 0) s = .next { s with
          mar := 0xFFE, mdr := s.wordHere 0xFFE, ac := s.wordHere 0xFFE, ic := s.ic + 2, continues := some true }) ∧
    (s.ac = 2 → ∀ sp : Word, s.wordHere 0xFFE = sp →
      (sp.toNat ≤ 0xFFE →
        exec (.osStack 0) s = .next { s with
            mar := sp, mdr := s.wordHere sp.toNat, ac := s.wordHere sp.toNat, ic := s.ic + 2,
            continues := some true }) ∧
      (0xFFE < sp.toNat →
        exec (.osStack 0) s = .next { s with
            mar := sp, mdr := sp, faultRecord := some ⟨.outOfRange sp, s.ic⟩, continues := none }))

/-- 47_os_trap.md R292, R294 (92 D8, D9, D10): set-pointer stores the word below MAR at 0x0FFE; set-stacktop stores it
where the stack pointer points. No other byte changes, and AC stays. -/
def Obligations.StackSetters : Prop :=
  ∀ (s : State) (arg : Word), Memory.wf s.mem = true → (s.mar - 2).toNat ≤ 0xFFE →
    s.wordHere (s.mar - 2).toNat = arg →
    (s.ac = 1 →
      ∃ t, exec (.osStack 1) s = .next t ∧
        t = { s with mar := 0xFFE, mdr := arg, mem := t.mem, ic := s.ic + 2, continues := some true } ∧
        t.wordHere 0xFFE = arg ∧ ∀ a, a ≠ 0xFFE → a ≠ 0xFFF → t.readByte a = s.readByte a) ∧
    (s.ac = 3 → ∀ sp : Word, s.wordHere 0xFFE = sp → sp.toNat ≤ 0xFFE →
      ∃ t, exec (.osStack 1) s = .next t ∧
        t = { s with mar := sp, mdr := arg, mem := t.mem, ic := s.ic + 2, continues := some true } ∧
        t.wordHere sp.toNat = arg ∧
        ∀ a, a ≠ sp.toNat → a ≠ sp.toNat + 1 → t.readByte a = s.readByte a)

/-- 47_os_trap.md R290, R292, R294, R310 (92 D9, D10): the selector is checked before the argument count, and the count
before the accesses; a faulting setter stores nothing. -/
def Obligations.StackFaults : Prop :=
  ∀ (argc : Nibble) (s : State),
    (4 ≤ s.ac.toNat →
      exec (.osStack argc) s = .next { s with
          faultRecord := some ⟨.invalidServiceSelector 0x57 s.ac, s.ic⟩, continues := none }) ∧
    (s.ac = 0 ∨ s.ac = 2 → argc ≠ 0 →
      exec (.osStack argc) s = .next { s with
          faultRecord := some ⟨.argumentCountMismatch 0x57 0 argc, s.ic⟩, continues := none }) ∧
    (s.ac = 1 ∨ s.ac = 3 → argc ≠ 1 →
      exec (.osStack argc) s = .next { s with
          faultRecord := some ⟨.argumentCountMismatch 0x57 1 argc, s.ic⟩, continues := none }) ∧
    (s.ac = 1 ∨ s.ac = 3 → argc = 1 → 0xFFE < (s.mar - 2).toNat →
      exec (.osStack argc) s = .next { s with
          mar := s.mar - 2, faultRecord := some ⟨.outOfRange (s.mar - 2), s.ic⟩, continues := none }) ∧
    (s.ac = 3 → argc = 1 → (s.mar - 2).toNat ≤ 0xFFE → 0xFFE < (s.wordHere 0xFFE).toNat →
      exec (.osStack argc) s = .next { s with
          mar := s.wordHere 0xFFE, mdr := s.wordHere (s.mar - 2).toNat,
          faultRecord := some ⟨.outOfRange (s.wordHere 0xFFE), s.ic⟩, continues := none })

/-- 47_os_trap.md R297, R298 (92 D10, D11); 40_alu.md R170, R171: NOT of the word below MAR, or AND, OR, XOR of the two
words below MAR, into AC; MAR and MDR are left at the last word taken. -/
def Obligations.BitwiseOnWordsBelowMar : Prop :=
  ∀ (argc : Nibble) (s : State) (x : Word), (s.mar - 2).toNat ≤ 0xFFE → s.wordHere (s.mar - 2).toNat = x →
    (s.ac = 0 →
      exec (.osBitwise argc) s = .next { s with
          mar := s.mar - 2, mdr := x, ac := ~~~ x, ic := s.ic + 2, continues := some true }) ∧
    ∀ y : Word, (s.mar - 2 - 2).toNat ≤ 0xFFE → s.wordHere (s.mar - 2 - 2).toNat = y →
      (s.ac = 1 →
        exec (.osBitwise argc) s = .next { s with
            mar := s.mar - 2 - 2, mdr := y, ac := x &&& y, ic := s.ic + 2, continues := some true }) ∧
      (s.ac = 2 →
        exec (.osBitwise argc) s = .next { s with
            mar := s.mar - 2 - 2, mdr := y, ac := x ||| y, ic := s.ic + 2, continues := some true }) ∧
      (s.ac = 3 →
        exec (.osBitwise argc) s = .next { s with
            mar := s.mar - 2 - 2, mdr := y, ac := x ^^^ y, ic := s.ic + 2, continues := some true })

/-- 47_os_trap.md R296, R297, R298, R310 (92 D11): an AC of 4 or more faults before any access; a word below MAR that is
out of range faults with what was taken before in place. -/
def Obligations.BitwiseFaults : Prop :=
  ∀ (argc : Nibble) (s : State),
    (4 ≤ s.ac.toNat →
      exec (.osBitwise argc) s = .next { s with
          faultRecord := some ⟨.invalidServiceSelector 0x01 s.ac, s.ic⟩, continues := none }) ∧
    (s.ac.toNat < 4 → 0xFFE < (s.mar - 2).toNat →
      exec (.osBitwise argc) s = .next { s with
          mar := s.mar - 2, faultRecord := some ⟨.outOfRange (s.mar - 2), s.ic⟩, continues := none }) ∧
    (1 ≤ s.ac.toNat → s.ac.toNat < 4 → (s.mar - 2).toNat ≤ 0xFFE → 0xFFE < (s.mar - 2 - 2).toNat →
      exec (.osBitwise argc) s = .next { s with
          mar := s.mar - 2 - 2, mdr := s.wordHere (s.mar - 2).toNat,
          faultRecord := some ⟨.outOfRange (s.mar - 2 - 2), s.ic⟩, continues := none })

/-- 47_os_trap.md R300, 20_memory.md R100 (92 D10, D12, D17): the word below MAR names the device. AC = 0 empties its
buffer. AC = 1 appends the environment's line to a keyboard's buffer, or reloads a disk's from its file (whether the unread
rest stays in front is free, log entry 10). No other device changes. That the buffer of a disk whose handle was closed is
cleaned and reloaded as before is the model's choice (log entry 16), and so is that a file no Disk(Write) wrote still has
the bytes of the preload (log entry 20). -/
def Obligations.BufferControlCleansOrAppends : Prop :=
  ∀ (argc : Nibble) (s : State) (w : Word) (dt k : Byte) (d : Device),
    (s.mar - 2).toNat ≤ 0xFFE → s.wordHere (s.mar - 2).toNat = w → w.extractLsb' 8 8 = dt → w.extractLsb' 0 8 = k →
    s.lookup dt k = some d → d.kind.buffered = true →
    (s.ac = 0 →
      ∃ u, exec (.osBufferControl argc) s = .next u ∧
        u = { s with
            mar := s.mar - 2, mdr := w, devices := u.devices, events := s.events ++ [.bufferCleaned dt k],
            ic := s.ic + 2, continues := some true } ∧
        u.lookup dt k = some { d with buffer := [] } ∧
        ∀ t' k', (t', k') ≠ (dt, k) → u.lookup t' k' = s.lookup t' k') ∧
    (s.ac = 1 →
      ∃ u buffer, exec (.osBufferControl argc) s = .next u ∧
        u = { s with
            mar := s.mar - 2, mdr := w, devices := u.devices, inputs := u.inputs, draws := u.draws,
            events := s.events ++ [.bufferAppended dt k], ic := s.ic + 2, continues := some true } ∧
        u.lookup dt k = some { d with buffer := buffer } ∧
        (d.kind = .keyboard → buffer = d.buffer ++ s.pullLine.1.getD [] ∧ u.inputs = s.pullLine.2.inputs ∧
          u.draws = s.pullLine.2.draws) ∧
        (∀ path, d.kind = .disk .read path → u.inputs = s.inputs ∧ u.draws = s.draws ∧
          (buffer = fileBytes s.files path ∨ buffer = d.buffer ++ fileBytes s.files path)) ∧
        ∀ t' k', (t', k') ≠ (dt, k) → u.lookup t' k' = s.lookup t' k')

/-- 47_os_trap.md R300, R310, 20_memory.md R91, R100 (92 D10, D12): the checks of OS 0x0D in their order: OutOfRange,
DeviceNotFound, InvalidServiceSelector, NoBuffer. A disk whose handle was closed faults as before (log entry 16). -/
def Obligations.BufferControlFaults : Prop :=
  ∀ (argc : Nibble) (s : State),
    (0xFFE < (s.mar - 2).toNat →
      exec (.osBufferControl argc) s = .next { s with
          mar := s.mar - 2, faultRecord := some ⟨.outOfRange (s.mar - 2), s.ic⟩, continues := none }) ∧
    ∀ (w : Word) (dt k : Byte), (s.mar - 2).toNat ≤ 0xFFE → s.wordHere (s.mar - 2).toNat = w →
      w.extractLsb' 8 8 = dt → w.extractLsb' 0 8 = k →
      (s.lookup dt k = none →
        exec (.osBufferControl argc) s = .next { s with
            mar := s.mar - 2, mdr := w, faultRecord := some ⟨.deviceNotFound dt k, s.ic⟩, continues := none }) ∧
      ∀ d, s.lookup dt k = some d →
        (2 ≤ s.ac.toNat →
          exec (.osBufferControl argc) s = .next { s with
              mar := s.mar - 2, mdr := w, faultRecord := some ⟨.invalidServiceSelector 0x0D s.ac, s.ic⟩,
              continues := none }) ∧
        (s.ac.toNat < 2 → (d.kind = .display ∨ d.kind = .printer ∨ ∃ path, d.kind = .disk .write path) →
          exec (.osBufferControl argc) s = .next { s with
              mar := s.mar - 2, mdr := w, faultRecord := some ⟨.noBuffer dt k, s.ic⟩, continues := none })

/-- 47_os_trap.md R305 (92 D14): the delay is an event with AC read as unsigned milliseconds, and changes no other state;
the model has no time. -/
def Obligations.DelayEmitsMilliseconds : Prop :=
  ∀ (argc : Nibble) (s : State),
    exec (.osDelay argc) s =
      .next { s with events := s.events ++ [.delay s.ac.toNat], ic := s.ic + 2, continues := some true }

/-- 47_os_trap.md R308: any sub-code outside the six emits a diagnostic, does not halt, and raises no fault. -/
def Obligations.UnknownTrapEmitsDiagnostic : Prop :=
  ∀ (argc : Nibble) (code : Byte) (s : State), code ∉ [0xEE, 0xEF, 0x57, 0x01, 0x0D, 0x71] →
    decodeWord (((0xF : Nibble) ++ argc : Byte) ++ code) = .osUnknown argc code ∧
    exec (.osUnknown argc code) s =
      .next { s with events := s.events ++ [.unknownTrap code], ic := s.ic + 2, continues := some true }

/-! ### The host port and reset -/

/-- 70_reset_and_hazards.md R390: load writes each value at its address as set_word does, in the order given. -/
def Obligations.LoadWritesInOrder : Prop :=
  (∀ s : State, hostLoad s [] = .ok s) ∧
  ∀ (s t : State) (entries : List (List Word)) (a v : Word), hostLoad s entries = .ok t → a.toNat ≤ 0xFFE →
    hostLoad s (entries ++ [[a, v]]) = hostSetWord t a v

/-- 70_reset_and_hazards.md R391 (92 D22): a sequence with an entry of wrong arity, or with an address above 0xFFE, fails
as a whole and writes nothing. That a wrong arity is named before a bad range, and which of several bad entries is named,
is the model's choice (log entry 15). -/
def Obligations.LoadFailsWhole : Prop :=
  ∀ (s : State) (entries : List (List Word)),
    ((∃ e ∈ entries, e.length ≠ 2) →
      ∃ k e, hostLoad s entries = .error (.malformedLoad k) ∧ entries[k]? = some e ∧ e.length ≠ 2) ∧
    ((∀ e ∈ entries, e.length = 2) → (∃ a v, [a, v] ∈ entries ∧ 0xFFE < a.toNat) →
      ∃ a v, hostLoad s entries = .error (.outOfRange a) ∧ [a, v] ∈ entries ∧ 0xFFE < a.toNat)

/-- 70_reset_and_hazards.md R393, R394: a run ends halted only in a state whose last step returned false, faulted only in a
state with a fault record, and never by a refusal. -/
def Obligations.RunEndsAsTheLastStepDid : Prop :=
  ∀ (s : State) (start : Word) (cap : Nat),
    (∀ t, hostRun s start cap = .halted t → t.continues = some false ∧ t.faultRecord = none ∧ t.trap = .running) ∧
    (∀ t, hostRun s start cap = .faulted t → t.faultRecord ≠ none) ∧
    ∀ r, hostRun s start cap ≠ .refused r

/-- 10_state.md R50, 70_reset_and_hazards.md R380, 20_memory.md R71, R92, R104: what construction leaves, for every
configuration, every set of files and every draw of the registers the spec leaves unspecified: memory zero, TrapState
Running, StepCount 0, Keyboard#0 and Display#0 with empty buffers, no fault, no output, and the files as they were. A
machine constructed anew keeps its files too. -/
def Obligations.ConstructionLeaves : Prop :=
  ∀ config files mar mdr ic ir ac,
    (∀ s, s = State.construct config files mar mdr ic ir ac →
      (∀ a, s.readByte a = 0x00) ∧ s.trap = .running ∧ s.stepCount = 0 ∧ s.faultRecord = none ∧ s.events = [] ∧
      s.devices.map (fun d => (d.kind, d.id, d.buffer)) = [(.keyboard, 0, []), (.display, 0, [])] ∧
      s.config = config ∧ s.files = files ∧ s.ac = ac ∧ s.ic = ic) ∧
    ∀ s t : State, t = hostReconstruct s config mar mdr ic ir ac →
      t = { State.construct config s.files mar mdr ic ir ac with inputs := t.inputs, draws := t.draws } ∧
      t.files = s.files

/-- 20_memory.md R102: adding a pair that is present fails DeviceAlreadyExists; remove takes out the devices of that pair and
no other, so removing an absent pair is a no-op. An add that succeeds keeps every device there is, and adds one of that
kind and identifier, its buffer preloaded from its file if it is a Disk(Read) (R97), else empty; a Disk(Write)'s file is
then listed, with the bytes it had, or with none (R104). Not R102's: that the new device stands last, where the scan of R94
meets it last, that a disk is added with an open handle (log entry 16), that opening keeps a listed file's bytes (log entry
9), and that the preload of a file no Disk(Write) wrote is what every later reload takes (log entry 20). -/
def Obligations.DeviceManagement : Prop :=
  ∀ (s : State) (kind : DeviceKind) (id : Byte),
    ((kind.type, id) ∈ s.devices.map Device.key →
      hostAdd s kind id = .error (.deviceAlreadyExists kind.type id)) ∧
    ((kind.type, id) ∉ s.devices.map Device.key →
      ∃ t d, hostAdd s kind id = .ok t ∧ t = { s with devices := s.devices ++ [d], files := t.files } ∧
        d.kind = kind ∧ d.id = id ∧
        (∀ path, kind = .disk .read path → d.buffer = fileBytes s.files path) ∧
        ((∀ path, kind ≠ .disk .read path) → d.buffer = []) ∧
        (d.handleOpen = true ↔ ∃ mode path, kind = .disk mode path) ∧
        (∀ path, kind = .disk .write path →
          t.files.lookup path = some ((s.files.lookup path).getD []) ∧
          ∀ p, p ≠ path → t.files.lookup p = s.files.lookup p) ∧
        ((∀ path, kind ≠ .disk .write path) → t.files = s.files) ∧
        ((s.devices.map Device.key).Nodup → (t.devices.map Device.key).Nodup)) ∧
    (∀ d, d ∈ (hostRemove s kind.type id).devices ↔ d ∈ s.devices ∧ d.key ≠ (kind.type, id)) ∧
    hostRemove s kind.type id = { s with devices := (hostRemove s kind.type id).devices } ∧
    ((kind.type, id) ∉ s.devices.map Device.key → hostRemove s kind.type id = s)
end

