-- ==== Sys2Proof/Laws/Decode.lean ====
section
/-! SUPPORT. The fields of a word and the word of its fields: each operation of the encoding undoes the other. -/

namespace Sys2Proof

@[simp] theorem opcodeField_wordOfFields (op : Nibble) (oi : Operand) : opcodeField (wordOfFields op oi) = op := by
  ext k hk
  simp only [opcodeField, wordOfFields, BitVec.getElem_extractLsb', BitVec.getLsbD_append]
  simp [show ¬ 12 + k < 12 by omega, BitVec.getLsbD_eq_getElem hk]

@[simp] theorem operandField_wordOfFields (op : Nibble) (oi : Operand) : operandField (wordOfFields op oi) = oi := by
  ext k hk
  simp only [operandField, wordOfFields, BitVec.getElem_extractLsb', BitVec.getLsbD_append]
  simp [hk]

@[simp] theorem wordOfFields_fields (w : Word) : wordOfFields (opcodeField w) (operandField w) = w := by
  refine BitVec.eq_of_getLsbD_eq fun k hk => ?_
  simp only [wordOfFields, opcodeField, operandField, BitVec.getLsbD_append, BitVec.getLsbD_extractLsb']
  split
  · simp [*]
  · simp [show 12 + (k - 12) = k by omega, show k - 12 < 4 by omega]

@[simp] theorem operandHigh_operandOf (hi : Nibble) (lo : Byte) : operandHigh (operandOf hi lo) = hi := by
  ext k hk
  simp only [operandHigh, operandOf, BitVec.getElem_extractLsb', BitVec.getLsbD_append]
  simp [show ¬ 8 + k < 8 by omega, BitVec.getLsbD_eq_getElem hk]

@[simp] theorem operandLow_operandOf (hi : Nibble) (lo : Byte) : operandLow (operandOf hi lo) = lo := by
  ext k hk
  simp only [operandLow, operandOf, BitVec.getElem_extractLsb', BitVec.getLsbD_append]
  simp [hk]

@[simp] theorem operandOf_parts (oi : Operand) : operandOf (operandHigh oi) (operandLow oi) = oi := by
  refine BitVec.eq_of_getLsbD_eq fun k hk => ?_
  simp only [operandOf, operandHigh, operandLow, BitVec.getLsbD_append, BitVec.getLsbD_extractLsb']
  split
  · simp [*]
  · simp [show 8 + (k - 8) = k by omega, show k - 8 < 4 by omega]

end Sys2Proof
end

