-- ==== Sys2Proof/Laws/State.lean ====
section
/-! SUPPORT. One lemma per field per named update of State, each true by `rfl`, so that no proof unfolds a record update. -/

namespace Sys2Proof.Machine

variable (s : State)

/-! ### done -/

@[simp] theorem State.done_mar : (s.done).mar = s.mar := rfl
@[simp] theorem State.done_mdr : (s.done).mdr = s.mdr := rfl
@[simp] theorem State.done_ic : (s.done).ic = s.ic := rfl
@[simp] theorem State.done_ir : (s.done).ir = s.ir := rfl
@[simp] theorem State.done_op : (s.done).op = s.op := rfl
@[simp] theorem State.done_oi : (s.done).oi = s.oi := rfl
@[simp] theorem State.done_ac : (s.done).ac = s.ac := rfl
@[simp] theorem State.done_trap : (s.done).trap = s.trap := rfl
@[simp] theorem State.done_stepCount : (s.done).stepCount = s.stepCount := rfl
@[simp] theorem State.done_mem : (s.done).mem = s.mem := rfl
@[simp] theorem State.done_devices : (s.done).devices = s.devices := rfl
@[simp] theorem State.done_files : (s.done).files = s.files := rfl
@[simp] theorem State.done_config : (s.done).config = s.config := rfl
@[simp] theorem State.done_faultRecord : (s.done).faultRecord = s.faultRecord := rfl
@[simp] theorem State.done_events : (s.done).events = s.events := rfl
@[simp] theorem State.done_continues : (s.done).continues = some true := rfl
@[simp] theorem State.done_inputs : (s.done).inputs = s.inputs := rfl
@[simp] theorem State.done_draws : (s.done).draws = s.draws := rfl

/-! ### stop -/

@[simp] theorem State.stop_mar : (s.stop).mar = s.mar := rfl
@[simp] theorem State.stop_mdr : (s.stop).mdr = s.mdr := rfl
@[simp] theorem State.stop_ic : (s.stop).ic = s.ic := rfl
@[simp] theorem State.stop_ir : (s.stop).ir = s.ir := rfl
@[simp] theorem State.stop_op : (s.stop).op = s.op := rfl
@[simp] theorem State.stop_oi : (s.stop).oi = s.oi := rfl
@[simp] theorem State.stop_ac : (s.stop).ac = s.ac := rfl
@[simp] theorem State.stop_trap : (s.stop).trap = s.trap := rfl
@[simp] theorem State.stop_stepCount : (s.stop).stepCount = s.stepCount := rfl
@[simp] theorem State.stop_mem : (s.stop).mem = s.mem := rfl
@[simp] theorem State.stop_devices : (s.stop).devices = s.devices := rfl
@[simp] theorem State.stop_files : (s.stop).files = s.files := rfl
@[simp] theorem State.stop_config : (s.stop).config = s.config := rfl
@[simp] theorem State.stop_faultRecord : (s.stop).faultRecord = s.faultRecord := rfl
@[simp] theorem State.stop_events : (s.stop).events = s.events := rfl
@[simp] theorem State.stop_continues : (s.stop).continues = some false := rfl
@[simp] theorem State.stop_inputs : (s.stop).inputs = s.inputs := rfl
@[simp] theorem State.stop_draws : (s.stop).draws = s.draws := rfl

/-! ### raise -/

@[simp] theorem State.raise_mar (f : Fault) : (s.raise f).mar = s.mar := rfl
@[simp] theorem State.raise_mdr (f : Fault) : (s.raise f).mdr = s.mdr := rfl
@[simp] theorem State.raise_ic (f : Fault) : (s.raise f).ic = s.ic := rfl
@[simp] theorem State.raise_ir (f : Fault) : (s.raise f).ir = s.ir := rfl
@[simp] theorem State.raise_op (f : Fault) : (s.raise f).op = s.op := rfl
@[simp] theorem State.raise_oi (f : Fault) : (s.raise f).oi = s.oi := rfl
@[simp] theorem State.raise_ac (f : Fault) : (s.raise f).ac = s.ac := rfl
@[simp] theorem State.raise_trap (f : Fault) : (s.raise f).trap = s.trap := rfl
@[simp] theorem State.raise_stepCount (f : Fault) : (s.raise f).stepCount = s.stepCount := rfl
@[simp] theorem State.raise_mem (f : Fault) : (s.raise f).mem = s.mem := rfl
@[simp] theorem State.raise_devices (f : Fault) : (s.raise f).devices = s.devices := rfl
@[simp] theorem State.raise_files (f : Fault) : (s.raise f).files = s.files := rfl
@[simp] theorem State.raise_config (f : Fault) : (s.raise f).config = s.config := rfl
@[simp] theorem State.raise_faultRecord (f : Fault) : (s.raise f).faultRecord = some { fault := f, ic0 := s.ic } := rfl
@[simp] theorem State.raise_events (f : Fault) : (s.raise f).events = s.events := rfl
@[simp] theorem State.raise_continues (f : Fault) : (s.raise f).continues = none := rfl
@[simp] theorem State.raise_inputs (f : Fault) : (s.raise f).inputs = s.inputs := rfl
@[simp] theorem State.raise_draws (f : Fault) : (s.raise f).draws = s.draws := rfl

/-! ### advance -/

@[simp] theorem State.advance_mar : (s.advance).mar = s.mar := rfl
@[simp] theorem State.advance_mdr : (s.advance).mdr = s.mdr := rfl
@[simp] theorem State.advance_ic : (s.advance).ic = s.ic + 2 := rfl
@[simp] theorem State.advance_ir : (s.advance).ir = s.ir := rfl
@[simp] theorem State.advance_op : (s.advance).op = s.op := rfl
@[simp] theorem State.advance_oi : (s.advance).oi = s.oi := rfl
@[simp] theorem State.advance_ac : (s.advance).ac = s.ac := rfl
@[simp] theorem State.advance_trap : (s.advance).trap = s.trap := rfl
@[simp] theorem State.advance_stepCount : (s.advance).stepCount = s.stepCount := rfl
@[simp] theorem State.advance_mem : (s.advance).mem = s.mem := rfl
@[simp] theorem State.advance_devices : (s.advance).devices = s.devices := rfl
@[simp] theorem State.advance_files : (s.advance).files = s.files := rfl
@[simp] theorem State.advance_config : (s.advance).config = s.config := rfl
@[simp] theorem State.advance_faultRecord : (s.advance).faultRecord = s.faultRecord := rfl
@[simp] theorem State.advance_events : (s.advance).events = s.events := rfl
@[simp] theorem State.advance_continues : (s.advance).continues = s.continues := rfl
@[simp] theorem State.advance_inputs : (s.advance).inputs = s.inputs := rfl
@[simp] theorem State.advance_draws : (s.advance).draws = s.draws := rfl

/-! ### emit -/

@[simp] theorem State.emit_mar (e : Event) : (s.emit e).mar = s.mar := rfl
@[simp] theorem State.emit_mdr (e : Event) : (s.emit e).mdr = s.mdr := rfl
@[simp] theorem State.emit_ic (e : Event) : (s.emit e).ic = s.ic := rfl
@[simp] theorem State.emit_ir (e : Event) : (s.emit e).ir = s.ir := rfl
@[simp] theorem State.emit_op (e : Event) : (s.emit e).op = s.op := rfl
@[simp] theorem State.emit_oi (e : Event) : (s.emit e).oi = s.oi := rfl
@[simp] theorem State.emit_ac (e : Event) : (s.emit e).ac = s.ac := rfl
@[simp] theorem State.emit_trap (e : Event) : (s.emit e).trap = s.trap := rfl
@[simp] theorem State.emit_stepCount (e : Event) : (s.emit e).stepCount = s.stepCount := rfl
@[simp] theorem State.emit_mem (e : Event) : (s.emit e).mem = s.mem := rfl
@[simp] theorem State.emit_devices (e : Event) : (s.emit e).devices = s.devices := rfl
@[simp] theorem State.emit_files (e : Event) : (s.emit e).files = s.files := rfl
@[simp] theorem State.emit_config (e : Event) : (s.emit e).config = s.config := rfl
@[simp] theorem State.emit_faultRecord (e : Event) : (s.emit e).faultRecord = s.faultRecord := rfl
@[simp] theorem State.emit_events (e : Event) : (s.emit e).events = s.events ++ [e] := rfl
@[simp] theorem State.emit_continues (e : Event) : (s.emit e).continues = s.continues := rfl
@[simp] theorem State.emit_inputs (e : Event) : (s.emit e).inputs = s.inputs := rfl
@[simp] theorem State.emit_draws (e : Event) : (s.emit e).draws = s.draws := rfl

/-! ### decodePhase -/

@[simp] theorem State.decodePhase_mar : (s.decodePhase).mar = s.mar := rfl
@[simp] theorem State.decodePhase_mdr : (s.decodePhase).mdr = s.mdr := rfl
@[simp] theorem State.decodePhase_ic : (s.decodePhase).ic = s.ic := rfl
@[simp] theorem State.decodePhase_ir : (s.decodePhase).ir = if s.timeInterruptPending then sentinel else s.mdr := rfl
@[simp] theorem State.decodePhase_op : (s.decodePhase).op = (opcodeField s.decodePhase.ir).setWidth 16 := rfl
@[simp] theorem State.decodePhase_oi : (s.decodePhase).oi = (operandField s.decodePhase.ir).setWidth 16 := rfl
@[simp] theorem State.decodePhase_ac : (s.decodePhase).ac = s.ac := rfl
@[simp] theorem State.decodePhase_trap : (s.decodePhase).trap = s.trap := rfl
@[simp] theorem State.decodePhase_stepCount : (s.decodePhase).stepCount = (if s.timeInterruptPending then 0 else s.stepCount) + 1 := rfl
@[simp] theorem State.decodePhase_mem : (s.decodePhase).mem = s.mem := rfl
@[simp] theorem State.decodePhase_devices : (s.decodePhase).devices = s.devices := rfl
@[simp] theorem State.decodePhase_files : (s.decodePhase).files = s.files := rfl
@[simp] theorem State.decodePhase_config : (s.decodePhase).config = s.config := rfl
@[simp] theorem State.decodePhase_faultRecord : (s.decodePhase).faultRecord = s.faultRecord := rfl
@[simp] theorem State.decodePhase_events : (s.decodePhase).events = s.events := rfl
@[simp] theorem State.decodePhase_continues : (s.decodePhase).continues = s.continues := rfl
@[simp] theorem State.decodePhase_inputs : (s.decodePhase).inputs = s.inputs := rfl
@[simp] theorem State.decodePhase_draws : (s.decodePhase).draws = s.draws := rfl

/-! ### enterSoftwareCall -/

@[simp] theorem State.enterSoftwareCall_mar : (s.enterSoftwareCall).mar = s.mar := rfl
@[simp] theorem State.enterSoftwareCall_mdr : (s.enterSoftwareCall).mdr = s.mdr := rfl
@[simp] theorem State.enterSoftwareCall_ic : (s.enterSoftwareCall).ic = s.ac - 2 := rfl
@[simp] theorem State.enterSoftwareCall_ir : (s.enterSoftwareCall).ir = s.ir := rfl
@[simp] theorem State.enterSoftwareCall_op : (s.enterSoftwareCall).op = s.op := rfl
@[simp] theorem State.enterSoftwareCall_oi : (s.enterSoftwareCall).oi = s.oi := rfl
@[simp] theorem State.enterSoftwareCall_ac : (s.enterSoftwareCall).ac = s.ac := rfl
@[simp] theorem State.enterSoftwareCall_trap : (s.enterSoftwareCall).trap = .inTrap (s.ic + 2) := rfl
@[simp] theorem State.enterSoftwareCall_stepCount : (s.enterSoftwareCall).stepCount = s.stepCount := rfl
@[simp] theorem State.enterSoftwareCall_mem : (s.enterSoftwareCall).mem = s.mem := rfl
@[simp] theorem State.enterSoftwareCall_devices : (s.enterSoftwareCall).devices = s.devices := rfl
@[simp] theorem State.enterSoftwareCall_files : (s.enterSoftwareCall).files = s.files := rfl
@[simp] theorem State.enterSoftwareCall_config : (s.enterSoftwareCall).config = s.config := rfl
@[simp] theorem State.enterSoftwareCall_faultRecord : (s.enterSoftwareCall).faultRecord = s.faultRecord := rfl
@[simp] theorem State.enterSoftwareCall_events : (s.enterSoftwareCall).events = s.events := rfl
@[simp] theorem State.enterSoftwareCall_continues : (s.enterSoftwareCall).continues = s.continues := rfl
@[simp] theorem State.enterSoftwareCall_inputs : (s.enterSoftwareCall).inputs = s.inputs := rfl
@[simp] theorem State.enterSoftwareCall_draws : (s.enterSoftwareCall).draws = s.draws := rfl

/-! ### returnFromSoftwareCall -/

@[simp] theorem State.returnFromSoftwareCall_mar (r : Word) : (s.returnFromSoftwareCall r).mar = s.mar := rfl
@[simp] theorem State.returnFromSoftwareCall_mdr (r : Word) : (s.returnFromSoftwareCall r).mdr = s.mdr := rfl
@[simp] theorem State.returnFromSoftwareCall_ic (r : Word) : (s.returnFromSoftwareCall r).ic = r := rfl
@[simp] theorem State.returnFromSoftwareCall_ir (r : Word) : (s.returnFromSoftwareCall r).ir = s.ir := rfl
@[simp] theorem State.returnFromSoftwareCall_op (r : Word) : (s.returnFromSoftwareCall r).op = s.op := rfl
@[simp] theorem State.returnFromSoftwareCall_oi (r : Word) : (s.returnFromSoftwareCall r).oi = s.oi := rfl
@[simp] theorem State.returnFromSoftwareCall_ac (r : Word) : (s.returnFromSoftwareCall r).ac = s.ac := rfl
@[simp] theorem State.returnFromSoftwareCall_trap (r : Word) : (s.returnFromSoftwareCall r).trap = .running := rfl
@[simp] theorem State.returnFromSoftwareCall_stepCount (r : Word) : (s.returnFromSoftwareCall r).stepCount = s.stepCount := rfl
@[simp] theorem State.returnFromSoftwareCall_mem (r : Word) : (s.returnFromSoftwareCall r).mem = s.mem := rfl
@[simp] theorem State.returnFromSoftwareCall_devices (r : Word) : (s.returnFromSoftwareCall r).devices = s.devices := rfl
@[simp] theorem State.returnFromSoftwareCall_files (r : Word) : (s.returnFromSoftwareCall r).files = s.files := rfl
@[simp] theorem State.returnFromSoftwareCall_config (r : Word) : (s.returnFromSoftwareCall r).config = s.config := rfl
@[simp] theorem State.returnFromSoftwareCall_faultRecord (r : Word) : (s.returnFromSoftwareCall r).faultRecord = s.faultRecord := rfl
@[simp] theorem State.returnFromSoftwareCall_events (r : Word) : (s.returnFromSoftwareCall r).events = s.events := rfl
@[simp] theorem State.returnFromSoftwareCall_continues (r : Word) : (s.returnFromSoftwareCall r).continues = s.continues := rfl
@[simp] theorem State.returnFromSoftwareCall_inputs (r : Word) : (s.returnFromSoftwareCall r).inputs = s.inputs := rfl
@[simp] theorem State.returnFromSoftwareCall_draws (r : Word) : (s.returnFromSoftwareCall r).draws = s.draws := rfl

/-! ### setBuffer -/

@[simp] theorem State.setBuffer_mar (t i : Byte) (b : List Byte) : (s.setBuffer t i b).mar = s.mar := rfl
@[simp] theorem State.setBuffer_mdr (t i : Byte) (b : List Byte) : (s.setBuffer t i b).mdr = s.mdr := rfl
@[simp] theorem State.setBuffer_ic (t i : Byte) (b : List Byte) : (s.setBuffer t i b).ic = s.ic := rfl
@[simp] theorem State.setBuffer_ir (t i : Byte) (b : List Byte) : (s.setBuffer t i b).ir = s.ir := rfl
@[simp] theorem State.setBuffer_op (t i : Byte) (b : List Byte) : (s.setBuffer t i b).op = s.op := rfl
@[simp] theorem State.setBuffer_oi (t i : Byte) (b : List Byte) : (s.setBuffer t i b).oi = s.oi := rfl
@[simp] theorem State.setBuffer_ac (t i : Byte) (b : List Byte) : (s.setBuffer t i b).ac = s.ac := rfl
@[simp] theorem State.setBuffer_trap (t i : Byte) (b : List Byte) : (s.setBuffer t i b).trap = s.trap := rfl
@[simp] theorem State.setBuffer_stepCount (t i : Byte) (b : List Byte) : (s.setBuffer t i b).stepCount = s.stepCount := rfl
@[simp] theorem State.setBuffer_mem (t i : Byte) (b : List Byte) : (s.setBuffer t i b).mem = s.mem := rfl
@[simp] theorem State.setBuffer_devices (t i : Byte) (b : List Byte) : (s.setBuffer t i b).devices = setFirstBuffer (Device.answers s.config.typeCodes t i) b s.devices := rfl
@[simp] theorem State.setBuffer_files (t i : Byte) (b : List Byte) : (s.setBuffer t i b).files = s.files := rfl
@[simp] theorem State.setBuffer_config (t i : Byte) (b : List Byte) : (s.setBuffer t i b).config = s.config := rfl
@[simp] theorem State.setBuffer_faultRecord (t i : Byte) (b : List Byte) : (s.setBuffer t i b).faultRecord = s.faultRecord := rfl
@[simp] theorem State.setBuffer_events (t i : Byte) (b : List Byte) : (s.setBuffer t i b).events = s.events := rfl
@[simp] theorem State.setBuffer_continues (t i : Byte) (b : List Byte) : (s.setBuffer t i b).continues = s.continues := rfl
@[simp] theorem State.setBuffer_inputs (t i : Byte) (b : List Byte) : (s.setBuffer t i b).inputs = s.inputs := rfl
@[simp] theorem State.setBuffer_draws (t i : Byte) (b : List Byte) : (s.setBuffer t i b).draws = s.draws := rfl

/-! ### cleanBuffer -/

@[simp] theorem State.cleanBuffer_mar (t i : Byte) : (s.cleanBuffer t i).mar = s.mar := rfl
@[simp] theorem State.cleanBuffer_mdr (t i : Byte) : (s.cleanBuffer t i).mdr = s.mdr := rfl
@[simp] theorem State.cleanBuffer_ic (t i : Byte) : (s.cleanBuffer t i).ic = s.ic := rfl
@[simp] theorem State.cleanBuffer_ir (t i : Byte) : (s.cleanBuffer t i).ir = s.ir := rfl
@[simp] theorem State.cleanBuffer_op (t i : Byte) : (s.cleanBuffer t i).op = s.op := rfl
@[simp] theorem State.cleanBuffer_oi (t i : Byte) : (s.cleanBuffer t i).oi = s.oi := rfl
@[simp] theorem State.cleanBuffer_ac (t i : Byte) : (s.cleanBuffer t i).ac = s.ac := rfl
@[simp] theorem State.cleanBuffer_trap (t i : Byte) : (s.cleanBuffer t i).trap = s.trap := rfl
@[simp] theorem State.cleanBuffer_stepCount (t i : Byte) : (s.cleanBuffer t i).stepCount = s.stepCount := rfl
@[simp] theorem State.cleanBuffer_mem (t i : Byte) : (s.cleanBuffer t i).mem = s.mem := rfl
@[simp] theorem State.cleanBuffer_devices (t i : Byte) : (s.cleanBuffer t i).devices = setFirstBuffer (Device.answers s.config.typeCodes t i) [] s.devices := rfl
@[simp] theorem State.cleanBuffer_files (t i : Byte) : (s.cleanBuffer t i).files = s.files := rfl
@[simp] theorem State.cleanBuffer_config (t i : Byte) : (s.cleanBuffer t i).config = s.config := rfl
@[simp] theorem State.cleanBuffer_faultRecord (t i : Byte) : (s.cleanBuffer t i).faultRecord = s.faultRecord := rfl
@[simp] theorem State.cleanBuffer_events (t i : Byte) : (s.cleanBuffer t i).events = s.events := rfl
@[simp] theorem State.cleanBuffer_continues (t i : Byte) : (s.cleanBuffer t i).continues = s.continues := rfl
@[simp] theorem State.cleanBuffer_inputs (t i : Byte) : (s.cleanBuffer t i).inputs = s.inputs := rfl
@[simp] theorem State.cleanBuffer_draws (t i : Byte) : (s.cleanBuffer t i).draws = s.draws := rfl

end Sys2Proof.Machine
end

