-- ==== Sys2Proof/Laws/Memory.lean ====
section
/-! SUPPORT. The laws of memory: every operation keeps the canonical form, a read after a write to the same place gives the
value written, and a write leaves every other place alone. -/

namespace Sys2Proof.Machine

/-! ### The canonical form -/

theorem wfFrom_cons {lo a : Nat} {v : Byte} {m : Memory} :
    Memory.wfFrom lo ((a, v) :: m) = true ↔
      lo ≤ a ∧ a ≤ 0xFFF ∧ v ≠ unlistedByte ∧ Memory.wfFrom (a + 1) m = true := by
  simp [Memory.wfFrom, and_assoc]

theorem wfFrom_mono {lo lo' : Nat} {m : Memory} (h : Memory.wfFrom lo m = true) (hl : lo' ≤ lo) :
    Memory.wfFrom lo' m = true := by
  cases m with
  | nil => rfl
  | cons c m =>
    rw [wfFrom_cons] at h ⊢
    exact ⟨hl.trans h.1, h.2⟩

/-- Below its first possible address a canonical memory reads as unlisted. -/
theorem read_below {lo a : Nat} {m : Memory} (h : Memory.wfFrom lo m = true) (ha : a < lo) :
    Memory.read m a = unlistedByte := by
  induction m generalizing lo with
  | nil => rfl
  | cons c m ih =>
    obtain ⟨b, v⟩ := c
    rw [wfFrom_cons] at h
    have hb : a ≠ b := by omega
    simpa [Memory.read, hb] using ih h.2.2.2 (by omega)

theorem write_wfFrom {lo a : Nat} {m : Memory} {v : Byte} (h : Memory.wfFrom lo m = true) (hl : lo ≤ a)
    (ha : a ≤ 0xFFF) : Memory.wfFrom lo (Memory.write m a v) = true := by
  induction m generalizing lo with
  | nil =>
    by_cases hv : v = unlistedByte
    · simp [Memory.write, hv, Memory.wfFrom]
    · simp [Memory.write, hv, Memory.wfFrom, hl, ha]
  | cons c m ih =>
    obtain ⟨b, w⟩ := c
    rw [wfFrom_cons] at h
    obtain ⟨h1, h2, h3, h4⟩ := h
    unfold Memory.write
    split
    · split
      · exact wfFrom_cons.2 ⟨h1, h2, h3, h4⟩
      · exact wfFrom_cons.2 ⟨hl, ha, ‹_›, wfFrom_cons.2 ⟨by omega, h2, h3, h4⟩⟩
    · split
      · subst a
        split
        · exact wfFrom_mono h4 (by omega)
        · exact wfFrom_cons.2 ⟨h1, h2, ‹_›, h4⟩
      · exact wfFrom_cons.2 ⟨h1, h2, h3, ih h4 (by omega)⟩

/-- Writing a byte of the address space keeps the canonical form. -/
theorem write_wf {a : Nat} {m : Memory} {v : Byte} (h : Memory.wf m = true) (ha : a ≤ 0xFFF) :
    Memory.wf (Memory.write m a v) = true :=
  write_wfFrom h (Nat.zero_le a) ha

/-- Storing a word in range keeps the canonical form. -/
theorem storeWord_wf {a : Nat} {m : Memory} {v : Word} (h : Memory.wf m = true) (ha : a + 1 ≤ 0xFFF) :
    Memory.wf (storeWord m a v) = true :=
  write_wf (write_wf h (by omega)) ha

/-! ### Reading after writing -/

/-- A write leaves every other address alone, in any memory. -/
theorem read_write_other {m : Memory} {a b : Nat} {v : Byte} (h : b ≠ a) :
    Memory.read (Memory.write m a v) b = Memory.read m b := by
  induction m with
  | nil =>
    unfold Memory.write
    split <;> simp [Memory.read, h]
  | cons c m ih =>
    obtain ⟨d, w⟩ := c
    unfold Memory.write
    split
    · split <;> simp [Memory.read, h]
    · split
      · subst a
        split <;> simp [Memory.read, h]
      · simp [Memory.read, ih]

theorem read_write_same_from {lo a : Nat} {m : Memory} {v : Byte} (h : Memory.wfFrom lo m = true) :
    Memory.read (Memory.write m a v) a = v := by
  induction m generalizing lo with
  | nil =>
    unfold Memory.write
    split <;> simp_all [Memory.read]
  | cons c m ih =>
    obtain ⟨d, w⟩ := c
    have h0 := h
    rw [wfFrom_cons] at h
    unfold Memory.write
    split
    · rename_i hlt
      split
      · subst v
        exact read_below (wfFrom_cons.2 ⟨le_refl d, h.2⟩) hlt
      · simp [Memory.read]
    · split
      · subst a
        split
        · subst v
          exact read_below h.2.2.2 (by omega)
        · simp [Memory.read]
      · rename_i hne
        simpa [Memory.read, hne] using ih h.2.2.2

/-- A read after a write to the same address gives the byte written. -/
theorem read_write_same {a : Nat} {m : Memory} {v : Byte} (h : Memory.wf m = true) :
    Memory.read (Memory.write m a v) a = v :=
  read_write_same_from h

/-! ### Words -/

theorem read_storeWord_other {m : Memory} {a b : Nat} {v : Word} (h : b ≠ a) (h' : b ≠ a + 1) :
    Memory.read (storeWord m a v) b = Memory.read m b := by
  rw [storeWord, read_write_other h', read_write_other h]

theorem read_storeWord_high {m : Memory} {a : Nat} {v : Word} (h : Memory.wf m = true) :
    Memory.read (storeWord m a v) a = v.extractLsb' 8 8 := by
  rw [storeWord, read_write_other (by omega), read_write_same h]

theorem read_storeWord_low {m : Memory} {a : Nat} {v : Word} (h : Memory.wf m = true) (ha : a ≤ 0xFFF) :
    Memory.read (storeWord m a v) (a + 1) = v.extractLsb' 0 8 := by
  rw [storeWord, read_write_same (write_wf h ha)]

theorem word_of_its_bytes (v : Word) : (v.extractLsb' 8 8 ++ v.extractLsb' 0 8 : Word) = v := by
  ext k hk
  simp only [BitVec.getElem_append, BitVec.getElem_extractLsb']
  split
  · rw [Nat.zero_add, BitVec.getLsbD_eq_getElem hk]
  · rw [show 8 + (k - 8) = k by omega, BitVec.getLsbD_eq_getElem hk]

/-- A word read after it was stored is the word stored (20_memory.md R74). -/
theorem wordAt_storeWord {m : Memory} {a : Nat} {v : Word} (h : Memory.wf m = true) (ha : a ≤ 0xFFF) :
    wordAt (storeWord m a v) a = v := by
  rw [wordAt, read_storeWord_high h, read_storeWord_low h ha]
  exact word_of_its_bytes v

theorem wordAt_eq_wordHere (s : State) (a : Nat) : wordAt s.mem a = s.wordHere a := rfl

end Sys2Proof.Machine
end

