-- ==== Sys2Proof/Laws/Ops.lean ====
section
/-! SUPPORT. One lemma per shared operation that says what it does, so that a proof cites it instead of unfolding it. -/

namespace Sys2Proof.Machine

/-! ### Addresses -/

theorem wordInRange_iff {a : Word} : wordInRange a = true ↔ a.toNat ≤ 0xFFE := by
  simp [wordInRange]
  omega

@[simp] theorem operandWord_toNat (oi : Operand) : (operandWord oi).toNat = oi.toNat := by
  have := oi.isLt
  simp [operandWord]
  omega

/-- The only operand address out of range is 0xFFF (30_encoding.md R134). -/
theorem operandWord_inRange_iff {oi : Operand} : wordInRange (operandWord oi) = true ↔ oi ≠ 0xFFF := by
  rw [wordInRange_iff, operandWord_toNat, ne_eq, ← BitVec.toNat_inj]
  have := oi.isLt
  simp
  omega

theorem spAddr_inRange : wordInRange spAddr = true := by decide

/-! ### Word access -/

theorem readWord_of_inRange {s : State} {a : Word} (h : wordInRange a = true) :
    s.readWord a = some (s.wordHere a.toNat) := by
  simp [State.readWord, h, wordAt_eq_wordHere]

theorem readWord_of_outOfRange {s : State} {a : Word} (h : wordInRange a = false) : s.readWord a = none := by
  simp [State.readWord, h]

theorem writeWord_of_inRange {s : State} {a v : Word} (h : wordInRange a = true) :
    s.writeWord a v = some { s with mem := storeWord s.mem a.toNat v } := by
  simp [State.writeWord, h]

theorem writeWord_of_outOfRange {s : State} {a v : Word} (h : wordInRange a = false) : s.writeWord a v = none := by
  simp [State.writeWord, h]

/-! ### The memory port -/

theorem readInto_of_inRange {s : State} {a : Word} {rest : State → State} (h : wordInRange a = true) :
    readInto s a rest = rest { s with mar := a, mdr := s.wordHere a.toNat } := by
  simp [readInto, readWord_of_inRange h]

theorem readInto_of_outOfRange {s : State} {a : Word} {rest : State → State} (h : wordInRange a = false) :
    readInto s a rest = State.raise { s with mar := a } (.outOfRange a) := by
  simp [readInto, readWord_of_outOfRange h]

theorem writeFrom_of_inRange {s : State} {a v : Word} {rest : State → State} (h : wordInRange a = true) :
    writeFrom s a v rest = rest { s with mar := a, mdr := v, mem := storeWord s.mem a.toNat v } := by
  simp [writeFrom, writeWord_of_inRange h]

theorem writeFrom_of_outOfRange {s : State} {a v : Word} {rest : State → State} (h : wordInRange a = false) :
    writeFrom s a v rest = State.raise { s with mar := a, mdr := v } (.outOfRange a) := by
  simp [writeFrom, writeWord_of_outOfRange h]

/-- Everything a read through the memory port can do. -/
theorem readInto_cases (s : State) (a : Word) (rest : State → State) :
    (wordInRange a = true ∧ readInto s a rest = rest { s with mar := a, mdr := s.wordHere a.toNat }) ∨
    (wordInRange a = false ∧ readInto s a rest = State.raise { s with mar := a } (.outOfRange a)) := by
  cases h : wordInRange a
  · exact .inr ⟨rfl, readInto_of_outOfRange h⟩
  · exact .inl ⟨rfl, readInto_of_inRange h⟩

/-- Everything a write through the memory port can do. -/
theorem writeFrom_cases (s : State) (a v : Word) (rest : State → State) :
    (wordInRange a = true ∧
      writeFrom s a v rest = rest { s with mar := a, mdr := v, mem := storeWord s.mem a.toNat v }) ∨
    (wordInRange a = false ∧ writeFrom s a v rest = State.raise { s with mar := a, mdr := v } (.outOfRange a)) := by
  cases h : wordInRange a
  · exact .inr ⟨rfl, writeFrom_of_outOfRange h⟩
  · exact .inl ⟨rfl, writeFrom_of_inRange h⟩

/-- A read at a direct address other than 0xFFF. -/
theorem readInto_operand {s : State} {oi : Operand} {rest : State → State} (h : oi ≠ 0xFFF) :
    readInto s (operandWord oi) rest = rest { s with mar := oi.setWidth 16, mdr := s.wordHere oi.toNat } := by
  rw [readInto_of_inRange (operandWord_inRange_iff.2 h), operandWord_toNat, operandWord]

/-- A read at the direct address 0xFFF. -/
theorem readInto_operand_last {s : State} {rest : State → State} :
    readInto s (operandWord 0xFFF) rest = State.raise { s with mar := 0xFFF } (.outOfRange 0xFFF) :=
  readInto_of_outOfRange (by decide)

/-- A write at a direct address other than 0xFFF. -/
theorem writeFrom_operand {s : State} {oi : Operand} {v : Word} {rest : State → State} (h : oi ≠ 0xFFF) :
    writeFrom s (operandWord oi) v rest =
      rest { s with mar := oi.setWidth 16, mdr := v, mem := storeWord s.mem oi.toNat v } := by
  rw [writeFrom_of_inRange (operandWord_inRange_iff.2 h), operandWord_toNat, operandWord]

/-- A write at the direct address 0xFFF. -/
theorem writeFrom_operand_last {s : State} {v : Word} {rest : State → State} :
    writeFrom s (operandWord 0xFFF) v rest = State.raise { s with mar := 0xFFF, mdr := v } (.outOfRange 0xFFF) :=
  writeFrom_of_outOfRange (by decide)

/-! ### The ALU -/

theorem aluDivide_zero (a : Word) : aluDivide a 0 = .error (.divisionByZero a) := by
  simp [aluDivide, signed16]

/-- signed16 is the two's-complement reading that `BitVec` defines. -/
theorem signed16_eq_toInt (v : Word) : signed16 v = v.toInt := by
  have := v.isLt
  simp only [signed16, BitVec.toInt_eq_msb_cond, BitVec.msb_eq_getLsbD_last]
  norm_num

theorem aluDivide_of_ne_zero {a b : Word} (h : b ≠ 0) : aluDivide a b = .ok (aluQuotient a b) := by
  have : b.toInt ≠ 0 := fun h0 => h (BitVec.toInt_inj.1 (by simpa using h0))
  simp [aluDivide, signed16_eq_toInt, this]

theorem aluWord_add (a b : Word) : aluWord 0x4 a b = .ok (a + b) := rfl
theorem aluWord_subtract (a b : Word) : aluWord 0x5 a b = .ok (a - b) := rfl
theorem aluWord_multiply (a b : Word) : aluWord 0x6 a b = .ok (a * b) := rfl
theorem aluWord_divide (a b : Word) : aluWord 0x7 a b = aluDivide a b := rfl
theorem aluWord_not (a b : Word) : aluWord 0xA a b = .ok (a ^^^ 0xFFFF) := rfl
theorem aluWord_and (a b : Word) : aluWord 0xB a b = .ok (a &&& b) := rfl
theorem aluWord_or (a b : Word) : aluWord 0xC a b = .ok (a ||| b) := rfl
theorem aluWord_xor (a b : Word) : aluWord 0xD a b = .ok (a ^^^ b) := rfl

theorem aluIntoAc_of_ok {s : State} {code : Nibble} {a b r : Word} {rest : State → State}
    (h : aluWord code a b = .ok r) : aluIntoAc s code a b rest = rest { s with ac := r } := by
  simp [aluIntoAc, h]

theorem aluIntoAc_of_error {s : State} {code : Nibble} {a b : Word} {f : Fault} {rest : State → State}
    (h : aluWord code a b = .error f) : aluIntoAc s code a b rest = s.raise f := by
  simp [aluIntoAc, h]

/-- Everything an ALU function into AC can do. -/
theorem aluIntoAc_cases (s : State) (code : Nibble) (a b : Word) (rest : State → State) :
    (∃ r, aluWord code a b = .ok r ∧ aluIntoAc s code a b rest = rest { s with ac := r }) ∨
    (∃ f, aluWord code a b = .error f ∧ aluIntoAc s code a b rest = s.raise f) := by
  unfold aluIntoAc
  cases h : aluWord code a b
  · exact .inr ⟨_, rfl, rfl⟩
  · exact .inl ⟨_, rfl, rfl⟩

/-! ### The time interrupt -/

theorem not_pending_of_noInterrupt {s : State} (h : s.noInterrupt) : s.timeInterruptPending = false := by
  rcases h with h | h
  · simp [State.timeInterruptPending, h]
  · simp [State.timeInterruptPending, h]

theorem pending_of_interruptDue {s : State} (h : s.interruptDue) : s.timeInterruptPending = true := by
  simp [State.timeInterruptPending, h.1, h.2]

theorem noInterrupt_or_due (s : State) : s.noInterrupt ∨ s.interruptDue := by
  unfold State.noInterrupt State.interruptDue
  cases s.config.tiEnabled <;> simp [Nat.lt_or_ge]

end Sys2Proof.Machine
end

