-- ==== Sys2Proof/Laws/Devices.lean ====
section
/-! SUPPORT. What the device operations do to the table, and everything a device read or write can do. -/

namespace Sys2Proof.Machine

/-! ### Replacing a buffer -/

/-- Replacing a buffer changes nothing but buffers: kind, identifier and file handle stay, device by device. -/
theorem setFirstBuffer_fixed (p : Device → Bool) (b : List Byte) (ds : List Device) :
    (setFirstBuffer p b ds).map (fun d => (d.kind, d.id, d.handleOpen)) = ds.map fun d => (d.kind, d.id, d.handleOpen) := by
  induction ds with
  | nil => rfl
  | cons d ds ih =>
    unfold setFirstBuffer
    split
    · rfl
    · simpa using ih

theorem setFirstBuffer_keys (p : Device → Bool) (b : List Byte) (ds : List Device) :
    (setFirstBuffer p b ds).map Device.key = ds.map Device.key := by
  induction ds with
  | nil => rfl
  | cons d ds ih =>
    unfold setFirstBuffer
    split
    · rfl
    · simpa using ih

/-- Whether a device answers does not depend on its buffer. -/
@[simp] theorem answers_setBuffer (c : TypeCodes) (t i : Byte) (d : Device) (b : List Byte) :
    Device.answers c t i { d with buffer := b } = Device.answers c t i d := rfl

/-- After a buffer is replaced, lookup finds the same device with the new buffer. -/
theorem find_setFirstBuffer (c : TypeCodes) (t i : Byte) (b : List Byte) (ds : List Device) :
    (setFirstBuffer (Device.answers c t i) b ds).find? (Device.answers c t i) =
      (ds.find? (Device.answers c t i)).map fun d => { d with buffer := b } := by
  induction ds with
  | nil => rfl
  | cons d ds ih =>
    by_cases h : Device.answers c t i d = true
    · simp [setFirstBuffer, h]
    · simp [setFirstBuffer, h, ih]

/-- A device answers to at most one pair of numbers. -/
theorem answers_unique {c : TypeCodes} {t i t' i' : Byte} {d : Device} (h : Device.answers c t i d = true)
    (h' : Device.answers c t' i' d = true) : (t', i') = (t, i) := by
  simp only [Device.answers, Bool.and_eq_true, beq_iff_eq] at h h'
  rw [← h.1, ← h.2, h'.1, h'.2]

/-- A lookup of another pair is unchanged. -/
theorem find_setFirstBuffer_other (c : TypeCodes) (t i t' i' : Byte) (b : List Byte) (ds : List Device)
    (hne : (t', i') ≠ (t, i)) :
    (setFirstBuffer (Device.answers c t i) b ds).find? (Device.answers c t' i') =
      ds.find? (Device.answers c t' i') := by
  induction ds with
  | nil => rfl
  | cons d ds ih =>
    by_cases h : Device.answers c t i d = true
    · have h' : Device.answers c t' i' d = false := by
        by_contra h'
        exact hne (answers_unique h (by simpa using h'))
      simp [setFirstBuffer, h, h']
    · simp [setFirstBuffer, h, ih, List.find?_cons]

/-! ### Reading and writing -/

/-- Everything a device read can do (20_memory.md R94, R95). -/
theorem devRead_cases (s : State) (t i : Byte) (rest : Word → State → State) :
    (s.lookup t i = none ∧ devRead s t i rest = s.raise (.deviceNotFound t i)) ∨
    (∃ d, s.lookup t i = some d ∧ d.kind.readable = false ∧ devRead s t i rest = s.raise (.unreadableDevice t i)) ∨
    (∃ d, s.lookup t i = some d ∧ d.kind.readable = true ∧
      devRead s t i rest = rest (s.getData t i d).1 (s.getData t i d).2) := by
  unfold devRead
  cases h : s.lookup t i with
  | none => exact .inl ⟨rfl, rfl⟩
  | some d => cases hr : d.kind.readable <;> simp [hr]

/-- Everything a device write can do (R94, R98). -/
theorem devWrite_cases (s : State) (t i : Byte) (w : Word) (rest : State → State) :
    (s.lookup t i = none ∧ devWrite s t i w rest = s.raise (.deviceNotFound t i)) ∨
    (∃ d, s.lookup t i = some d ∧ d.kind.writable = false ∧ devWrite s t i w rest = s.raise (.unwritableDevice t i)) ∨
    (∃ d, s.lookup t i = some d ∧ d.kind.writable = true ∧ devWrite s t i w rest = rest (s.putData t i d w)) := by
  unfold devWrite
  cases h : s.lookup t i with
  | none => exact .inl ⟨rfl, rfl⟩
  | some d => cases hr : d.kind.writable <;> simp [hr]

/-- Pulling a line changes only the environment's fields. -/
theorem pullLine_eq (s : State) :
    s.pullLine.2 = { s with inputs := s.pullLine.2.inputs, draws := s.pullLine.2.draws } := by
  unfold State.pullLine
  split <;> rfl

/-- Refilling a keyboard changes only the environment's fields. -/
theorem refillKeyboard_eq (s : State) (b : List Byte) :
    (s.refillKeyboard b).2 = { s with inputs := (s.refillKeyboard b).2.inputs, draws := (s.refillKeyboard b).2.draws } := by
  unfold State.refillKeyboard
  split
  · exact pullLine_eq s
  · rfl

/-- A device read replaces one buffer, and changes nothing else but the environment's fields. -/
theorem getData_cases (s : State) (t i : Byte) (d : Device) :
    ∃ b lines n, (s.getData t i d).2 =
      { s with devices := setFirstBuffer (Device.answers s.config.typeCodes t i) b s.devices, inputs := lines,
               draws := n } := by
  unfold State.getData
  by_cases h : d.kind = .keyboard
  · simp only [h, if_true]
    rw [refillKeyboard_eq]
    exact ⟨_, _, _, rfl⟩
  · simp only [h, if_false]
    exact ⟨_, s.inputs, s.draws, rfl⟩

/-! ### Backing files -/

/-- Appending to a file puts the bytes behind those that were written to it. -/
theorem lookup_appendToFile (files : List (String × List Byte)) (path : String) (bytes : List Byte) :
    (appendToFile files path bytes).lookup path = some (writtenBytes files path ++ bytes) := by
  simp [appendToFile]

/-- Taking another file's entries out of the list changes nothing of a file. -/
theorem lookup_filter_other {files : List (String × List Byte)} {path p : String} (h : p ≠ path) :
    (files.filter fun f => f.1 ≠ path).lookup p = files.lookup p := by
  induction files with
  | nil => rfl
  | cons f fs ih =>
    obtain ⟨q, c⟩ := f
    have hp : (p == path) = false := by simpa using h
    by_cases hq : q = path
    · subst hq
      simpa [List.filter_cons, List.lookup_cons, hp] using ih
    · cases hpq : p == q <;> simp_all [List.lookup_cons]

/-- Appending to a file changes no other file. -/
theorem lookup_appendToFile_other {files : List (String × List Byte)} {path p : String} {bytes : List Byte}
    (h : p ≠ path) : (appendToFile files path bytes).lookup p = files.lookup p := by
  have hp : (p == path) = false := by simpa using h
  simp only [appendToFile, List.lookup_cons, hp]
  exact lookup_filter_other h

/-- A file opened for writing holds what was written to it. -/
theorem lookup_openForWriting (files : List (String × List Byte)) (path : String) :
    (openForWriting files path).lookup path = some (writtenBytes files path) := by
  unfold openForWriting writtenBytes
  cases h : files.lookup path <;> simp [h]

/-- Opening a file for writing changes no other file. -/
theorem lookup_openForWriting_other {files : List (String × List Byte)} {path p : String} (h : p ≠ path) :
    (openForWriting files path).lookup p = files.lookup p := by
  have hp : (p == path) = false := by simpa using h
  unfold openForWriting
  split <;> simp [List.lookup_cons, hp]

/-! ### Device writes and appends -/

/-- A device write changes only the files and the output history. -/
theorem putData_eq (s : State) (t i : Byte) (d : Device) (w : Word) :
    s.putData t i d w = { s with files := (s.putData t i d w).files, events := (s.putData t i d w).events } := by
  unfold State.putData
  split <;> rfl

/-- An append to a buffered device replaces one buffer, and changes nothing else but the environment's fields. -/
theorem appendBuffer_cases (s : State) (t i : Byte) (d : Device) (h : d.kind.buffered = true) :
    ∃ b lines n, s.appendBuffer t i d =
      { s with devices := setFirstBuffer (Device.answers s.config.typeCodes t i) b s.devices, inputs := lines,
               draws := n } := by
  unfold State.appendBuffer
  split
  · exact ⟨_, s.inputs, s.draws, rfl⟩
  · rw [pullLine_eq s]
    exact ⟨_, _, _, rfl⟩
  · simp_all [DeviceKind.buffered]
  · simp_all [DeviceKind.buffered]

end Sys2Proof.Machine
end

