-- ==== Sys2Proof/Laws/PerInstr.lean ====
section
/-! SUPPORT. Per-instruction laws of the encoding: the word of an instruction carries the bits that its row of
spec/opcode_table.json fixes, and no bit outside them is fixed by its constructor. -/

namespace Sys2Proof.Laws.TableRow

/-- The mask of an instruction's row. -/
def mask : Instr → Word
  | .osPrintStatus _ | .osSoftwareCall _ | .osStack _ | .osBitwise _ | .osBufferControl _ | .osDelay _ => 0xF0FF
  | .jump _ | .jumpIfZero _ | .jumpIfNeg _ | .loadValue _ | .add _ | .sub _ | .mul _ | .div _ | .load _ | .memory _
  | .subroutine _ | .ret _ | .halt _ | .getData _ _ | .putData _ _ | .osUnknown _ _ => 0xF000

/-- The match value of an instruction's row. -/
def pattern : Instr → Word
  | .jump _ => 0x0000
  | .jumpIfZero _ => 0x1000
  | .jumpIfNeg _ => 0x2000
  | .loadValue _ => 0x3000
  | .add _ => 0x4000
  | .sub _ => 0x5000
  | .mul _ => 0x6000
  | .div _ => 0x7000
  | .load _ => 0x8000
  | .memory _ => 0x9000
  | .subroutine _ => 0xA000
  | .ret _ => 0xB000
  | .halt _ => 0xC000
  | .getData _ _ => 0xD000
  | .putData _ _ => 0xE000
  | .osPrintStatus _ => 0xF0EE
  | .osSoftwareCall _ => 0xF0EF
  | .osStack _ => 0xF057
  | .osBitwise _ => 0xF001
  | .osBufferControl _ => 0xF00D
  | .osDelay _ => 0xF071
  | .osUnknown _ _ => 0xF000

/-- The instruction's word matches its row of the opcode table. -/
def Statement (i : Instr) : Prop := encode i &&& mask i = pattern i

/-- Masking a word to its opcode clears its operand. -/
theorem opcode_masked (n : Nibble) (oi : Operand) : wordOfFields n oi &&& 0xF000 = wordOfFields n 0 := by
  have h : opcodeField (wordOfFields n oi &&& 0xF000) = n := by
    conv_rhs => rw [← opcodeField_wordOfFields n oi]
    generalize wordOfFields n oi = w
    ext k hk
    interval_cases k <;> simp [opcodeField]
  have h' : operandField (wordOfFields n oi &&& 0xF000) = 0 := by
    generalize wordOfFields n oi = w
    ext k hk
    interval_cases k <;> simp [operandField]
  rw [← wordOfFields_fields (wordOfFields n oi &&& 0xF000), h, h']

/-- Masking an OS word to its opcode and sub-code clears its argument count. -/
theorem code_masked (argc : Nibble) (code : Byte) :
    wordOfFields 0xF (operandOf argc code) &&& 0xF0FF = wordOfFields 0xF (operandOf 0 code) := by
  have h : opcodeField (wordOfFields 0xF (operandOf argc code) &&& 0xF0FF) = 0xF := by
    conv_rhs => rw [← opcodeField_wordOfFields 0xF (operandOf argc code)]
    generalize wordOfFields 0xF (operandOf argc code) = w
    ext k hk
    interval_cases k <;> simp [opcodeField]
  have h' : operandField (wordOfFields 0xF (operandOf argc code) &&& 0xF0FF) = operandOf 0 code := by
    rw [← operandOf_parts (operandField _)]
    congr 1
    · generalize wordOfFields 0xF (operandOf argc code) = w
      ext k hk
      interval_cases k <;> simp [operandField, operandHigh]
    · conv_rhs => rw [← operandLow_operandOf argc code, ← operandField_wordOfFields 0xF (operandOf argc code)]
      generalize wordOfFields 0xF (operandOf argc code) = w
      ext k hk
      interval_cases k <;> simp [operandField, operandLow]
  rw [← wordOfFields_fields (wordOfFields 0xF (operandOf argc code) &&& 0xF0FF), h, h']

theorem jump (oi : Operand) : Statement (.jump oi) := opcode_masked 0x0 oi
theorem jumpIfZero (oi : Operand) : Statement (.jumpIfZero oi) := opcode_masked 0x1 oi
theorem jumpIfNeg (oi : Operand) : Statement (.jumpIfNeg oi) := opcode_masked 0x2 oi
theorem loadValue (oi : Operand) : Statement (.loadValue oi) := opcode_masked 0x3 oi
theorem add (oi : Operand) : Statement (.add oi) := opcode_masked 0x4 oi
theorem sub (oi : Operand) : Statement (.sub oi) := opcode_masked 0x5 oi
theorem mul (oi : Operand) : Statement (.mul oi) := opcode_masked 0x6 oi
theorem div (oi : Operand) : Statement (.div oi) := opcode_masked 0x7 oi
theorem load (oi : Operand) : Statement (.load oi) := opcode_masked 0x8 oi
theorem memory (oi : Operand) : Statement (.memory oi) := opcode_masked 0x9 oi
theorem subroutine (oi : Operand) : Statement (.subroutine oi) := opcode_masked 0xA oi
theorem ret (oi : Operand) : Statement (.ret oi) := opcode_masked 0xB oi
theorem halt (oi : Operand) : Statement (.halt oi) := opcode_masked 0xC oi
theorem getData (t : Nibble) (i : Byte) : Statement (.getData t i) := opcode_masked 0xD (operandOf t i)
theorem putData (t : Nibble) (i : Byte) : Statement (.putData t i) := opcode_masked 0xE (operandOf t i)
theorem osPrintStatus (argc : Nibble) : Statement (.osPrintStatus argc) := code_masked argc 0xEE
theorem osSoftwareCall (argc : Nibble) : Statement (.osSoftwareCall argc) := code_masked argc 0xEF
theorem osStack (argc : Nibble) : Statement (.osStack argc) := code_masked argc 0x57
theorem osBitwise (argc : Nibble) : Statement (.osBitwise argc) := code_masked argc 0x01
theorem osBufferControl (argc : Nibble) : Statement (.osBufferControl argc) := code_masked argc 0x0D
theorem osDelay (argc : Nibble) : Statement (.osDelay argc) := code_masked argc 0x71
theorem osUnknown (argc : Nibble) (code : Byte) : Statement (.osUnknown argc code) :=
  opcode_masked 0xF (operandOf argc code)

end Sys2Proof.Laws.TableRow
end

