-- ==== Sys2Proof/Laws/Step.lean ====
section
/-! SUPPORT. What a step can do, said once. -/

namespace Sys2Proof.Machine

/-- Fetch reads the word at IC, or faults before decode (41_cycle.md R191). -/
theorem fetchThen_of_inRange {s : State} {rest : State → Host.Outcome State Fault Refusal}
    (h : wordInRange s.ic = true) :
    fetchThen s rest = rest { s with mar := s.ic, mdr := s.wordHere s.ic.toNat } := by
  simp [fetchThen, readWord_of_inRange h]

theorem fetchThen_of_outOfRange {s : State} {rest : State → Host.Outcome State Fault Refusal}
    (h : wordInRange s.ic = false) :
    fetchThen s rest = .next (State.raise { s with mar := s.ic } (.outOfRange s.ic)) := by
  simp [fetchThen, readWord_of_outOfRange h]

/-- Decode without an interrupt: the fetched word is the instruction (R192). -/
theorem decodePhase_of_noInterrupt {s : State} (h : s.noInterrupt) :
    State.decodePhase { s with mar := s.ic, mdr := s.wordHere s.ic.toNat } = s.fetched := by
  have h' : State.timeInterruptPending { s with mar := s.ic, mdr := s.wordHere s.ic.toNat } = false :=
    not_pending_of_noInterrupt h
  simp [State.decodePhase, h', State.fetched, opcodeField, operandField]

/-- The state in which a time interrupt's SUBROUTINE 0x000 executes (R192, R193). -/
theorem decodePhase_of_interruptDue {s : State} (h : s.interruptDue) :
    State.decodePhase { s with mar := s.ic, mdr := s.wordHere s.ic.toNat } =
      { s with mar := s.ic, mdr := s.wordHere s.ic.toNat, ir := sentinel, op := 0xA, oi := 0, stepCount := 1 } := by
  have h' : State.timeInterruptPending { s with mar := s.ic, mdr := s.wordHere s.ic.toNat } = true :=
    pending_of_interruptDue h
  simp [State.decodePhase, h', opcodeField, operandField, sentinel]

/-- The sentinel decodes as SUBROUTINE 0x000 (30_encoding.md R144). -/
theorem decodeWord_sentinel : decodeWord sentinel = .subroutine 0 := by decide

/-- Everything a step that answers a state can do: a fetch fault, the fetched instruction, or the time interrupt. -/
theorem step_next_cases {s t : State} (h : step s = .next t) :
    s.faultRecord = none ∧
    ((wordInRange s.ic = false ∧ t = State.raise { s with mar := s.ic } (.outOfRange s.ic)) ∨
     (wordInRange s.ic = true ∧ s.noInterrupt ∧ exec (decodeWord (s.wordHere s.ic.toNat)) s.fetched = .next t) ∨
     (wordInRange s.ic = true ∧ s.interruptDue ∧
       exec (.subroutine 0)
         { s with mar := s.ic, mdr := s.wordHere s.ic.toNat, ir := sentinel, op := 0xA, oi := 0, stepCount := 1 }
         = .next t)) := by
  unfold step at h
  split at h
  · cases h
  · rename_i hr
    refine ⟨hr, ?_⟩
    unfold runCycle at h
    cases hw : wordInRange s.ic
    · rw [fetchThen_of_outOfRange hw] at h
      cases h
      exact .inl ⟨rfl, rfl⟩
    · rw [fetchThen_of_inRange hw] at h
      rcases noInterrupt_or_due s with hi | hi
      · rw [decodePhase_of_noInterrupt hi] at h
        exact .inr (.inl ⟨rfl, hi, h⟩)
      · rw [decodePhase_of_interruptDue hi, executePhase, decodeWord_sentinel] at h
        exact .inr (.inr ⟨rfl, hi, h⟩)

end Sys2Proof.Machine
end

