-- ==== Sys2Proof/Tests/Slice0.lean ====
section
/-! SUPPORT. Tests of the model and witnesses for the statements. Expected results are those of spec/95_test_vectors.md
(section given at each group) or computed by hand from the rule cited. A theorem named `witness_<statement>` shows states
and operands that meet the hypotheses of `Obligations.<statement>`, clause by clause. -/

namespace Sys2Proof.Tests

open Sys2Proof Sys2Proof.Machine

/-! ### Small machines -/

/-- A memory that holds these words. -/
def memoryOf (words : List (Nat × Word)) : Memory := words.foldl (fun m p => storeWord m p.1 p.2) []

/-- The machine after reset with IC, AC and some words of memory set. -/
def machine (ic ac : Word) (words : List (Nat × Word)) : State :=
  { State.reset with ic := ic, ac := ac, mem := memoryOf words }

/-- The same with this device table. -/
def withDevices (devices : List Device) (s : State) : State := { s with devices := devices }

/-- The same with a time interrupt of this limit, and this step count. -/
def withTimer (limit count : Nat) (s : State) : State :=
  { s with config := { s.config with tiEnabled := true, tiLimit := limit }, stepCount := count }

/-- The state after one step. -/
def after (s : State) : Option State :=
  match step s with
  | .next t => some t
  | .fault _ => none
  | .refused _ => none

def keyboard (buffer : List Byte) : Device := { kind := .keyboard, id := 0, buffer := buffer, handleOpen := false }
def display : Device := { kind := .display, id := 0, buffer := [], handleOpen := false }
def printer : Device := { kind := .printer, id := 0, buffer := [], handleOpen := false }
def diskRead (id : Byte) (buffer : List Byte) : Device :=
  { kind := .disk .read "F", id := id, buffer := buffer, handleOpen := true }
def diskWrite (id : Byte) : Device := { kind := .disk .write "F", id := id, buffer := [], handleOpen := true }

/-- A table with one device of each kind, and a keyboard that holds these bytes. -/
def allDevices (buffer : List Byte) : List Device :=
  [keyboard buffer, display, printer, diskRead 1 [0x01, 0x02, 0x03], diskWrite 2]

/-! ### Well-formedness: what each check refuses -/

theorem test_wellFormed_refuses_service_codes :
    (knownOsCodes.map fun code => (Instr.osUnknown 0 code).wellFormed) = [false, false, false, false, false, false] := by
  decide

theorem test_wellFormed_accepts_other_codes :
    (Instr.osUnknown 0xF 0x42).wellFormed = true ∧ (Instr.osUnknown 0 0x00).wellFormed = true := by decide

/-! ### Decoding: words written out from the encoding of 30_encoding.md R131, R135 to R137, opcode in bits 15 to 12 -/

theorem test_decode_jumps :
    decodeWord 0b0000_1010_1011_1100 = .jump 0xABC ∧ decodeWord 0b0001_0010_0000_0000 = .jumpIfZero 0x200 ∧
    decodeWord 0b0010_0011_0000_0001 = .jumpIfNeg 0x301 := by decide

theorem test_decode_accumulator :
    decodeWord 0b0011_1111_1111_1111 = .loadValue 0xFFF ∧ decodeWord 0b0100_0010_0000_0000 = .add 0x200 ∧
    decodeWord 0b0101_0010_0000_0001 = .sub 0x201 ∧ decodeWord 0b0110_0000_0100_0000 = .mul 0x040 ∧
    decodeWord 0b0111_1111_1111_1111 = .div 0xFFF ∧ decodeWord 0b1000_0000_0000_0001 = .load 0x001 ∧
    decodeWord 0b1001_0000_1111_1101 = .memory 0x0FD := by decide

theorem test_decode_control :
    decodeWord 0b1010_0000_0000_0000 = .subroutine 0x000 ∧ decodeWord 0b1011_1111_1111_1110 = .ret 0xFFE ∧
    decodeWord 0b1100_1010_1011_1100 = .halt 0xABC := by decide

theorem test_decode_devices :
    decodeWord 0b1101_0001_1111_1111 = .getData 1 0xFF ∧ decodeWord 0b1110_0011_0000_0010 = .putData 3 0x02 := by decide

theorem test_decode_services :
    decodeWord 0b1111_0001_1110_1110 = .osPrintStatus 1 ∧ decodeWord 0b1111_1000_1110_1111 = .osSoftwareCall 8 ∧
    decodeWord 0b1111_0001_0101_0111 = .osStack 1 ∧ decodeWord 0b1111_0000_0000_0001 = .osBitwise 0 ∧
    decodeWord 0b1111_0010_0000_1101 = .osBufferControl 2 ∧ decodeWord 0b1111_0000_0111_0001 = .osDelay 0 ∧
    decodeWord 0b1111_0000_0000_0000 = .osUnknown 0 0x00 ∧ decodeWord 0b1111_1111_0100_0010 = .osUnknown 0xF 0x42 := by
  decide

/-- The table numbers bit 0 as the least significant bit of the word. -/
theorem test_decodeTableWord :
    decodeTableWord 16 0xD209 = some (.getData 2 9) ∧ decodeTableWord 16 0xF057 = some (.osStack 0) ∧
    decodeTableWord 16 0xFFFF = some (.osUnknown 0xF 0xFF) := by decide

theorem test_encode : encode (.putData 3 2) = 0xE302 ∧ encode (.osUnknown 0xF 0x42) = 0xFF42 ∧
    encode (.loadValue 0x005) = 0x3005 := by decide

/-! ### ALU (95 2.2, 40_alu.md R173) -/

theorem test_alu_divide_signs :
    aluDivide 0x0064 0x0007 = .ok 0x000E ∧ aluDivide 0xFF9C 0x0007 = .ok 0xFFF2 ∧ aluDivide 0xFFFF 0xFFFF = .ok 0x0001 ∧
    aluDivide 0x8000 0xFFFF = .ok 0x8000 ∧ aluDivide 0xFFF9 0x0002 = .ok 0xFFFD ∧
    aluDivide 0x1234 0x0000 = .error (.divisionByZero 0x1234) := by decide

theorem test_alu_words :
    aluMultiply 0xFFFE 0x0003 = 0xFFFA ∧ aluMultiply 0x1234 0x0010 = 0x2340 ∧ aluSubtract 1 2 = 0xFFFF ∧
    aluAdd 0xFFFF 1 = 0 ∧ aluNot 0x0F0F = 0xF0F0 ∧ aluAnd 0xFFFF 0x1234 = 0x1234 ∧ aluXor 0xAAAA 0x5555 = 0xFFFF ∧
    aluOr 0x00FF 0x0F0F = 0x0FFF := by decide

theorem test_alu_contract :
    aluExecute 3 0 0 = .error (.invalidInstruction 3) ∧ aluExecute 4 65536 0 = .error (.invalidOperand 65536) ∧
    aluExecute 2 0x8000 0 = .ok (.bool true) ∧ aluExecute 1 0x8000 0 = .ok (.bool false) := by decide

/-! ### Jumps (95 2.3) -/

theorem test_jump : (after (machine 0x010 7 [(0x010, 0x0ABC)])).map (fun t => (t.ic, t.ac, t.mar, t.mdr, t.stepCount)) =
    some (0xABC, 7, 0x010, 0x0ABC, 1) := by decide

theorem test_jumpIfZero_taken_to_odd :
    (after (machine 0x010 0 [(0x010, 0x1123)])).map (·.ic) = some 0x123 := by decide

theorem test_jumpIfZero_not_taken_at_the_top :
    (after (machine 0xFFE 1 [(0xFFE, 0x1200)])).map (·.ic) = some 0x1000 := by decide

theorem test_jumpIfNeg_taken : (after (machine 0x010 0x8000 [(0x010, 0x2300)])).map (·.ic) = some 0x300 := by decide

theorem test_jumpIfNeg_not_taken : (after (machine 0x010 0x7FFF [(0x010, 0x2300)])).map (·.ic) = some 0x012 := by decide

/-! ### Accumulator and memory (95 2.4) -/

theorem test_loadValue_zero_extends :
    (after (machine 0x010 0xFFFF [(0x010, 0x3FFF)])).map (fun t => (t.ac, t.ic)) = some (0x0FFF, 0x012) := by decide

theorem test_add_wraps_into_the_sign :
    (after (machine 0x010 0x7FFF [(0x010, 0x4200), (0x200, 0x0001)])).map (fun t => (t.ac, t.mar, t.mdr, t.ic)) =
      some (0x8000, 0x200, 0x0001, 0x012) := by decide

theorem test_add_out_of_range :
    (after (machine 0x010 5 [(0x010, 0x4FFF)])).map (fun t => (t.ac, t.ic, t.mar, t.faultRecord, t.continues)) =
      some (5, 0x010, 0xFFF, some ⟨.outOfRange 0xFFF, 0x010⟩, none) := by decide

theorem test_sub_borrows : (after (machine 0x010 0 [(0x010, 0x5200), (0x200, 0x0001)])).map (·.ac) = some 0xFFFF := by
  decide

theorem test_mul_keeps_low_bits :
    (after (machine 0x010 0x0100 [(0x010, 0x6200), (0x200, 0x0101)])).map (·.ac) = some 0x0100 := by decide

theorem test_div_truncates : (after (machine 0x010 0xFFF9 [(0x010, 0x7200), (0x200, 0x0002)])).map (·.ac) =
    some 0xFFFD := by decide

theorem test_div_by_zero :
    (after (machine 0x010 5 [(0x010, 0x7200)])).map (fun t => (t.ac, t.ic, t.mar, t.mdr, t.faultRecord)) =
      some (5, 0x010, 0x200, 0, some ⟨.divisionByZero 5, 0x010⟩) := by decide

theorem test_load_odd_address :
    (after (machine 0x010 0 [(0x010, 0x8201), (0x201, 0xABCD)])).map (fun t => (t.ac, t.mar)) = some (0xABCD, 0x201) := by
  decide

theorem test_memory_high_byte_first :
    (after (machine 0x010 0x1234 [(0x010, 0x90FD)])).map (fun t => (t.readByte 0x0FD, t.readByte 0x0FE, t.mdr)) =
      some (0x12, 0x34, 0x1234) := by decide

theorem test_memory_out_of_range_stores_nothing :
    (after (machine 0x010 0x1234 [(0x010, 0x9FFF), (0xFFE, 0x0077)])).map (fun t => (t.readByte 0xFFF, t.mar, t.mdr)) =
      some (0x77, 0xFFF, 0x1234) := by decide

/-! ### Subroutines and HALT (95 2.5, 2.6) -/

theorem test_subroutine :
    (after (machine 0x011 9 [(0x011, 0xA201)])).map (fun t => (t.wordHere 0x201, t.mar, t.mdr, t.ic, t.ac)) =
      some (0x0013, 0x201, 0x0013, 0x203, 9) := by decide

theorem test_subroutine_at_the_top :
    (after (machine 0x010 0 [(0x010, 0xAFFE)])).map (fun t => (t.wordHere 0xFFE, t.ic)) = some (0x0012, 0x1000) := by decide

theorem test_return :
    (after (machine 0x010 0 [(0x010, 0xB200), (0x200, 0x1234)])).map (fun t => (t.ic, t.mar, t.mdr)) =
      some (0x1234, 0x200, 0x1234) := by decide

theorem test_halt_running :
    (after (machine 0x010 0 [(0x010, 0xCFFF)])).map (fun t => (t.ic, t.trap, t.continues)) =
      some (0x010, .running, some false) := by decide

theorem test_halt_in_trap :
    (after { machine 0x010 0 [(0x010, 0xC123)] with trap := .inTrap 0x022 }).map (fun t => (t.ic, t.trap, t.continues)) =
      some (0x022, .running, some true) := by decide

/-! ### Devices (95 2.7) -/

theorem test_getData_pulls_a_line :
    (after { withDevices [keyboard [0x43]] (machine 0x010 0 [(0x010, 0xD000)]) with inputs := [some [0x44]] }).map
        (fun t => (t.ac, t.devices.map (·.buffer), t.inputs)) = some (0x4344, [[]], []) := by decide

theorem test_getData_starved :
    (after (withDevices [diskRead 1 [0x03]] (machine 0x010 7 [(0x010, 0xD301)]))).map
        (fun t => (t.ac, t.devices.map (·.buffer), t.ic)) = some (0x0000, [[0x03]], 0x012) := by decide

theorem test_putData_display :
    (after (machine 0x010 0x4849 [(0x010, 0xE100)])).map (fun t => (t.events, t.ac, t.ic)) =
      some ([.displayOut 1 0 0x4849], 0x4849, 0x012) := by decide

theorem test_putData_keyboard_faults :
    (after (machine 0x010 0 [(0x010, 0xE000)])).map (fun t => (t.events, t.faultRecord)) =
      some ([], some ⟨.unwritableDevice 0 0, 0x010⟩) := by decide

/-! ### The OS trap (95 2.8) -/

theorem test_printStatus_checks_the_count_first :
    (after (machine 0x020 0 [(0x020, 0xF1EE)])).map (·.faultRecord) =
      some (some ⟨.argumentCountMismatch 0xEE 0 1, 0x020⟩) := by decide

theorem test_softwareCall :
    (after (machine 0x020 0 [(0x020, 0xF8EF)])).map (fun t => (t.trap, t.ic)) = some (.inTrap 0x022, 0x000) := by decide

theorem test_softwareCall_inside_another :
    (after { machine 0x104 0x300 [(0x104, 0xF0EF)] with trap := .inTrap 0x022 }).map (fun t => (t.trap, t.ic)) =
      some (.inTrap 0x106, 0x300) := by decide

theorem test_stack_set_pointer :
    (after (machine 0x020 1 [(0x020, 0xF157), (0x01E, 0x0D00)])).map
        (fun t => (t.wordHere 0xFFE, t.ac, t.mar, t.mdr, t.ic)) = some (0x0D00, 1, 0xFFE, 0x0D00, 0x022) := by decide

theorem test_stack_get_top :
    (after (machine 0x020 2 [(0x020, 0xF057), (0xFFE, 0x0E00), (0xE00, 0xBEEF)])).map (fun t => (t.ac, t.mar)) =
      some (0xBEEF, 0xE00) := by decide

theorem test_bitwise_and :
    (after (machine 0x010 1 [(0x010, 0xF001), (0x00E, 0x00FF), (0x00C, 0x0F0F)])).map (fun t => (t.ac, t.mar, t.mdr)) =
      some (0x000F, 0x00C, 0x0F0F) := by decide

theorem test_bitwise_second_word_out_of_range :
    (after (machine 0x002 1 [(0x002, 0xF001), (0x000, 0x1234)])).map (fun t => (t.ac, t.mar, t.mdr, t.faultRecord)) =
      some (1, 0xFFFE, 0x1234, some ⟨.outOfRange 0xFFFE, 0x002⟩) := by decide

theorem test_bufferControl_append :
    (after { machine 0x010 1 [(0x010, 0xF00D)] with inputs := [some [0x41, 0x42]] }).map
        (fun t => (t.devices.map (·.buffer), t.events)) = some ([[0x41, 0x42], []], [.bufferAppended 0 0]) := by decide

theorem test_bufferControl_device_before_selector :
    (after (machine 0x010 5 [(0x010, 0xF00D), (0x00E, 0x0209)])).map (·.faultRecord) =
      some (some ⟨.deviceNotFound 2 9, 0x010⟩) := by decide

theorem test_delay_is_unsigned :
    (after (machine 0x020 0xFFFF [(0x020, 0xF071)])).map (fun t => (t.events, t.ic)) = some ([.delay 65535], 0x022) := by
  decide

theorem test_unknown_trap :
    (after (machine 0x020 0 [(0x020, 0xFF42)])).map (fun t => (t.events, t.continues)) =
      some ([.unknownTrap 0x42], some true) := by decide

/-! ### The cycle and the time interrupt (95 2.9) -/

theorem test_interrupt_displaces_halt :
    (after (withTimer 5 5 (machine 0x016 0 [(0x016, 0xC000)]))).map
        (fun t => (t.wordHere 0, t.ic, t.stepCount, t.ir, t.continues)) =
      some (0x0018, 0x002, 1, 0xA000, some true) := by decide

theorem test_fetch_fault_before_interrupt :
    (after (withTimer 5 9 (machine 0xFFF 0 []))).map (fun t => (t.stepCount, t.faultRecord, t.mem)) =
      some (9, some ⟨.outOfRange 0xFFF, 0xFFF⟩, []) := by decide

theorem test_interrupt_keeps_the_trap_state :
    (after { withTimer 3 3 (machine 0x104 0 []) with trap := .inTrap 0x022 }).map (fun t => (t.trap, t.wordHere 0, t.ic)) =
      some (.inTrap 0x022, 0x0106, 0x002) := by decide

theorem test_reset_steps_and_decodes_zero : (after State.reset).map (fun t => (t.ic, t.ac, t.stepCount, t.continues)) =
    some (0, 0, 1, some true) := by decide

/-- The word that `withFetchWord` places runs next, from reset and from a state that is faulted, out of range and due an
interrupt. -/
theorem test_withFetchWord :
    (after (State.reset.withFetchWord 16 0x3005)).map (·.ac) = some 5 ∧
    (after ({ withTimer 5 9 (machine 0x1000 0 []) with faultRecord := some ⟨.outOfRange 0, 0⟩ }.withFetchWord
      16 0x3005)).map (·.ac) = some 5 := by decide

/-! ### The host port (95 2.10) -/

theorem test_load_overlapping :
    (match hostLoad State.reset [[0x100, 0x1234], [0x101, 0xABCD]] with
      | .ok t => [t.readByte 0x100, t.readByte 0x101, t.readByte 0x102]
      | .error _ => []) = [0x12, 0xAB, 0xCD] := by decide

theorem test_load_failures :
    (match hostLoad State.reset [[0x000, 0x1111], [0x002]] with | .ok _ => none | .error f => some f) =
      some (.malformedLoad 1) ∧
    (match hostLoad State.reset [[0x000, 0x1111], [0xFFF, 0x0001]] with | .ok _ => none | .error f => some f) =
      some (.outOfRange 0xFFF) := by decide

theorem test_dump :
    hostDump (machine 0 0 [(0xFFE, 0x005A)]) 0xFFF 0xFFF = .ok [0x5A] ∧
    hostDump State.reset 0x010 0x00F = .error (.invalidDumpRange 0x010 0x00F) ∧
    hostDump State.reset 0x000 0x1000 = .error (.outOfRange 0x1000) := by decide

/-- 95 2.7 and S9: a Disk(Write) added on a file holds its words alone, high byte first, and a machine constructed anew
keeps the file, which a Disk(Read) is then preloaded from. -/
theorem test_disk_written_then_read :
    let s := match hostAdd (machine 0x010 0x4849 [(0x010, 0xE301)]) (.disk .write "F") 1 with
      | .ok t => after t
      | .error _ => none
    s.map (fun t => t.files) = some [("F", [0x48, 0x49])] ∧
    s.map (fun t => (newDevice (hostReconstruct t .default 0 0 0 0 0) (.disk .read "F") 1).buffer) = some [0x48, 0x49] := by
  decide

theorem test_add_present_device :
    (match hostAdd State.reset .keyboard 0 with | .ok _ => none | .error f => some f) =
      some (.deviceAlreadyExists .keyboard 0) := by decide

theorem test_remove_absent_device : hostRemove State.reset .printer 3 = State.reset := by rfl

/-! ### Witnesses: encoding and the cycle -/

theorem witness_DecodeOfEncode :
    (Instr.osUnknown 0xF 0x42).wellFormed = true ∧ (Instr.div 0xFFF).wellFormed = true := by decide

theorem witness_DecodeReadsTwoBytes : ([] : List Byte).length < 2 ∧ ([0xC0] : List Byte).length < 2 := by decide

/-- At the last IC that can be fetched, with no time interrupt configured and with one whose limit is one step away. -/
theorem witness_StepRunsDecodedInstruction :
    ∀ s ∈ [machine 0xFFE 0 [(0xFFE, 0xC000)], withTimer 5 4 (machine 0xFFE 0 [(0xFFE, 0xC000)])],
      s.faultRecord = none ∧ s.ic.toNat ≤ 0xFFE ∧ s.noInterrupt ∧
      decode [s.readByte s.ic.toNat, s.readByte (s.ic.toNat + 1)] = .ok (.halt 0, []) := by decide

theorem witness_FetchOutOfRangeEndsTheStep :
    ((machine 0xFFF 0 []).faultRecord = none ∧ 0xFFE < (machine 0xFFF 0 []).ic.toNat) ∧
    ((machine 0xFFFF 0 []).faultRecord = none ∧ 0xFFE < (machine 0xFFFF 0 []).ic.toNat) := by decide

theorem witness_TimeInterruptEntry :
    ∀ s ∈ [withTimer 5 5 (machine 0x016 0 [(0x016, 0xC000)]), withTimer 0 0 (machine 0xFFE 0 [])],
      s.faultRecord = none ∧ s.ic.toNat ≤ 0xFFE ∧ s.interruptDue ∧ Memory.wf s.mem = true := by decide

/-- A step of each of the three clauses. -/
theorem witness_StepCountMovesOnlyInDecode :
    (∃ t, step (machine 0xFFF 0 []) = .next t ∧ 0xFFE < (machine 0xFFF 0 []).ic.toNat) ∧
    (∃ t, step (machine 0xFFE 0 []) = .next t ∧ (machine 0xFFE 0 []).noInterrupt) ∧
    (∃ t, step (withTimer 5 5 (machine 0xFFE 0 [])) = .next t ∧ (withTimer 5 5 (machine 0xFFE 0 [])).interruptDue) :=
  ⟨⟨_, rfl, by decide⟩, ⟨_, rfl, by decide⟩, ⟨_, rfl, by decide⟩⟩

theorem witness_FaultedStateTakesNoStep :
    ({ State.reset with faultRecord := some ⟨.outOfRange 0xFFF, 0⟩ } : State).faultRecord =
      some ⟨.outOfRange 0xFFF, 0⟩ := by decide

theorem witness_EveryUnfaultedStepAnswersAState : State.reset.faultRecord = none := by decide

/-- A halting, a faulting and a plain step. -/
theorem witness_ReturnsFalseExactlyOnTrueHalt :
    (∃ t, step (machine 0 0 [(0, 0xC000)]) = .next t ∧ t.continues = some false) ∧
    (∃ t, step (machine 0 0 [(0, 0x7100)]) = .next t ∧ t.continues = none) ∧
    (∃ t, step (machine 0 0 [(0, 0x3005)]) = .next t ∧ t.faultRecord = none ∧ t.continues ≠ some false) :=
  ⟨⟨_, rfl, by decide⟩, ⟨_, rfl, by decide⟩, ⟨_, rfl, by decide⟩⟩

theorem witness_FaultingStepIsPrecise :
    ∃ t, step (machine 0 0 [(0, 0x7100)]) = .next t ∧ t.faultRecord ≠ none := ⟨_, rfl, by decide⟩

theorem witness_InvariantKeptByEveryStep :
    Inv (machine 0x010 0x1234 [(0x010, 0x9100)]) ∧ ∃ t, step (machine 0x010 0x1234 [(0x010, 0x9100)]) = .next t :=
  ⟨⟨by decide, by decide, by decide, by decide, fun _ h => by cases h⟩, _, rfl⟩

/-! ### Witnesses: who writes what -/

theorem witness_TrapStateWrittenOnlyByCallAndReturn :
    (∃ t, exec (.osSoftwareCall 0) (machine 0x020 0 []) = .next t ∧ t.trap ≠ (machine 0x020 0 []).trap) ∧
    (∃ t, exec (.halt 0) { machine 0x020 0 [] with trap := .inTrap 8 } = .next t ∧ t.trap ≠ .inTrap 8) :=
  ⟨⟨_, rfl, by decide⟩, ⟨_, rfl, by decide⟩⟩

/-- Each of the four kinds of store changes a byte. -/
theorem witness_MemoryWrittenOnlyByStores :
    (∃ t, exec (.memory 0x100) (machine 0 0x1234 []) = .next t ∧ t.readByte 0x100 ≠ (machine 0 0x1234 []).readByte 0x100) ∧
    (∃ t, exec (.subroutine 0x100) (machine 8 0 []) = .next t ∧ t.readByte 0x101 ≠ (machine 8 0 []).readByte 0x101) ∧
    (∃ t, exec (.osStack 1) { machine 0 1 [(0x00E, 0x1234)] with mar := 0x010 } = .next t ∧ t.readByte 0xFFE ≠ 0) ∧
    (∃ t, exec (.osStack 1) { machine 0 3 [(0x00E, 0x1234), (0xFFE, 0x0E00)] with mar := 0x010 } = .next t ∧
      t.readByte 0xE00 ≠ 0) :=
  ⟨⟨_, rfl, by decide⟩, ⟨_, rfl, by decide⟩, ⟨_, rfl, by decide⟩, ⟨_, rfl, by decide⟩⟩

theorem witness_AccumulatorWrittenOnlyBy :
    (∃ t, exec (.loadValue 5) (machine 0 0 []) = .next t ∧ t.ac ≠ 0) ∧
    (∃ t, exec (.getData 0 0) (withDevices [keyboard [0x41, 0x42]] (machine 0 0 [])) = .next t ∧ t.ac ≠ 0) ∧
    (∃ t, exec (.osStack 0) (machine 0 0 [(0xFFE, 0x0E00)]) = .next t ∧ t.ac ≠ 0) ∧
    (∃ t, exec (.osBitwise 0) { machine 0 0 [] with mar := 0x010 } = .next t ∧ t.ac ≠ 0) :=
  ⟨⟨_, rfl, by decide⟩, ⟨_, rfl, by decide⟩, ⟨_, rfl, by decide⟩, ⟨_, rfl, by decide⟩⟩

theorem witness_OtherRegistersWrittenOnlyBy :
    ∃ t, exec (.load 0x100) (machine 0 0 [(0x100, 0x1234)]) = .next t ∧
      (t.mar ≠ (machine 0 0 []).mar ∨ t.mdr ≠ (machine 0 0 []).mdr) := ⟨_, rfl, by decide⟩

/-- A step with an event that is no DiskOut, one with a DiskOut, and one without an event; another file beside it. -/
theorem witness_EventsOnlyAppended :
    (∃ t, step (machine 0x020 0 [(0x020, 0xF071)]) = .next t ∧ t.events = [.delay 0]) ∧
    (∃ t, step (withDevices [diskWrite 2] (machine 0x010 0xBEEF [(0x010, 0xE302)])) = .next t ∧
      t.events = [.diskOut 3 2 0xBEEF]) ∧
    (∃ t, step (machine 0x020 0 []) = .next t ∧ t.events = []) ∧ "G" ≠ "F" :=
  ⟨⟨_, rfl, by decide⟩, ⟨_, rfl, by decide⟩, ⟨_, rfl, by decide⟩, by decide⟩

theorem witness_DeviceTableFixedBySteps :
    ∃ t, step (withDevices (allDevices [0x41, 0x42]) (machine 0x010 0 [(0x010, 0xD000)])) = .next t ∧
      t.devices = allDevices [] := ⟨_, rfl, by decide⟩

/-! ### Witnesses: several steps -/

/-- A limit of one step: from count 0, after 0 steps and after 1; from a state due an interrupt, after 1 step. -/
theorem witness_TimeInterruptPeriod :
    let s := withTimer 1 0 (machine 0x010 0 [(0x010, 0x0010)])
    let u := withTimer 1 1 (machine 0x010 0 [])
    s.config.tiEnabled = true ∧ 1 ≤ s.config.tiLimit ∧ s.stepCount = 0 ∧ CompletedSteps 0 s s ∧
    (∃ t, CompletedSteps 1 s t) ∧ u.interruptDue ∧ ∃ t, CompletedSteps 1 u t :=
  ⟨by decide, by decide, by decide, .zero _, ⟨_, .succ (.zero _) ⟨rfl, by decide⟩⟩, by decide,
    ⟨_, .succ (.zero _) ⟨rfl, by decide⟩⟩⟩

/-- A limit of two: one step after an interrupt none is due. -/
theorem witness_TimeInterruptPeriod_between :
    let u := withTimer 2 2 (machine 0x010 0 [])
    u.config.tiEnabled = true ∧ 1 < u.config.tiLimit ∧ u.interruptDue ∧ ∃ t, CompletedSteps 1 u t :=
  ⟨by decide, by decide, by decide, ⟨_, .succ (.zero _) ⟨rfl, by decide⟩⟩⟩

theorem witness_HaltedMachineHaltsAgain :
    ∃ t, step (machine 0x010 0 [(0x010, 0xC000)]) = .next t ∧ t.continues = some false ∧ t.noInterrupt :=
  ⟨_, rfl, by decide, by decide⟩

theorem witness_WordPlacedAtIcRunsNext :
    ∀ s ∈ [State.reset, withTimer 0 0 (machine 0x1000 0 [(0x000, 0xFFFF)])], Memory.wf s.mem = true := by decide

/-! ### Witnesses: memory and the ALU -/

theorem witness_StoredWordReadsBack :
    Memory.wf (machine 0 0 [(0x101, 0xABCD)]).mem = true ∧ (0x000 : Word).toNat ≤ 0xFFE ∧ (0x101 : Word).toNat ≤ 0xFFE ∧
    (0xFFE : Word).toNat ≤ 0xFFE := by decide

theorem witness_WordAccessOutOfRangeFaults :
    0xFFF ≤ (0xFFF : Word).toNat ∧ 0xFFF ≤ (0x1000 : Word).toNat ∧ 0xFFF ≤ (0xFFFF : Word).toNat := by decide

theorem witness_DivisionTruncatesTowardsZero : (0xFFFF : Word) ≠ 0 ∧ (0 : Word) = 0 := by decide

/-- Codes outside and inside the set; operands just outside and just inside the range; the one call that faults
otherwise. -/
theorem witness_AluContract :
    (∀ code ∈ ([0, 3, 8, 0xE, 16, -1] : List Int), code ∉ ([1, 2, 4, 5, 6, 7, 0xA, 0xB, 0xC, 0xD] : List Int)) ∧
    (∀ code ∈ ([1, 0xD] : List Int), code ∈ ([1, 2, 4, 5, 6, 7, 0xA, 0xB, 0xC, 0xD] : List Int)) ∧
    (∀ a ∈ ([-1, 0x10000] : List Int), a < 0 ∨ 0xFFFF < a) ∧ (∀ a ∈ ([0, 0xFFFF] : List Int), 0 ≤ a ∧ a ≤ 0xFFFF) := by
  decide

/-! ### Witnesses: jumps, accumulator, subroutines -/

theorem witness_JumpSetsIc :
    State.reset.faultRecord = none ∧ ∃ t, exec (.jump 0xFFF) State.reset = .next t := ⟨by decide, _, rfl⟩

theorem witness_JumpIfZeroTestsAc :
    (machine 0 0 []).ac = 0x0000 ∧ (machine 0xFFE 0x8000 []).ac ≠ 0x0000 ∧ (machine 0xFFE 0x8000 []).ic = 0xFFE ∧
    (machine 0xFFE 0x8000 []).faultRecord = none ∧
    ∃ t, exec (.jumpIfZero 0x200) (machine 0xFFE 0x8000 []) = .next t := ⟨by decide, by decide, by decide, by decide, _, rfl⟩

theorem witness_JumpIfNegTestsBit15 : 0x8000 ≤ (machine 0 0x8000 []).ac.toNat ∧ (machine 0 0x7FFF []).ac.toNat < 0x8000 := by
  decide

theorem witness_AddSubMulWrap : (0xFFE : Operand) ≠ 0xFFF ∧ (0xFFF : Operand) = 0xFFF := by decide

theorem witness_DivDividesOrFaults :
    ((0xFFE : Operand) ≠ 0xFFF ∧ (machine 0 0 [(0xFFE, 0x0002)]).wordHere (0xFFE : Operand).toNat ≠ 0) ∧
    ((0xFFE : Operand) ≠ 0xFFF ∧ (machine 0 0 []).wordHere (0xFFE : Operand).toNat = 0) ∧
    (0xFFF : Operand) = 0xFFF := by decide

theorem witness_LoadReadsTheWord : (0xFFE : Operand) ≠ 0xFFF ∧ (0xFFF : Operand) = 0xFFF := by decide

theorem witness_MemoryStoresAc :
    (Memory.wf (machine 0 0x1234 [(0x100, 0x0001)]).mem = true ∧ (0xFFE : Operand) ≠ 0xFFF) ∧
    (0xFFF : Operand) = 0xFFF := by decide

theorem witness_SubroutineSavesReturnWord :
    (Memory.wf (machine 0x010 0 [(0x100, 0x0001)]).mem = true ∧ (0xFFE : Operand) ≠ 0xFFF) ∧
    (0xFFF : Operand) = 0xFFF := by decide

theorem witness_ReturnLoadsIc : (0xFFE : Operand) ≠ 0xFFF ∧ (0xFFF : Operand) = 0xFFF := by decide

theorem witness_ReturnComesBackBehindTheCall :
    Memory.wf (machine 0x010 0 []).mem = true ∧ (0x200 : Operand) ≠ 0xFFF ∧
    ∃ t, exec (.subroutine 0x200) (machine 0x010 0 []) = .next t ∧
      ({ t with ac := 7, ic := 0x300 } : State).wordHere 0x200 = t.wordHere 0x200 := ⟨by decide, by decide, _, rfl, by decide⟩

theorem witness_HaltStopsOrReturns :
    (machine 0 0 []).trap = .running ∧ ({ machine 0 0 [] with trap := .inTrap 0x022 } : State).trap = .inTrap 0x022 := by
  decide

theorem witness_SoftwareCallEntersAtAc :
    0xFFE < (machine 0x020 0xFFF []).ac.toNat ∧ (machine 0x020 0xFFF []).faultRecord = none ∧
    ∃ t, exec (.osSoftwareCall 0) (machine 0x020 0xFFF []) = .next t := ⟨by decide, by decide, _, rfl⟩

theorem witness_HaltReturnsFromTheLastCall :
    ∃ t, exec (.osSoftwareCall 0) (machine 0x020 0x300 []) = .next t ∧ ({ t with ac := 7 } : State).trap = t.trap ∧
      ∃ x : State, x.trap = .running := ⟨_, rfl, rfl, State.reset, rfl⟩

/-! ### Witnesses: devices -/

/-- A keyboard that pulls, one that does not, and a disk; buffers of 0, 1, 2 and 3 bytes; another device is there. -/
theorem witness_GetDataReadsTheDevice :
    (∀ b ∈ ([[], [0x41], [0x41, 0x42]] : List (List Byte)),
      (withDevices (allDevices b) (machine 0 0 [])).lookup ((0 : Nibble).setWidth 8) 0 = some (keyboard b)) ∧
    (keyboard []).kind.readable = true ∧
    (withDevices (allDevices []) (machine 0 0 [])).lookup ((3 : Nibble).setWidth 8) 1 = some (diskRead 1 [1, 2, 3]) ∧
    (diskRead 1 [1, 2, 3]).kind.readable = true ∧
    ((keyboard [0x41]).kind = .keyboard ∧ (keyboard [0x41]).buffer.length < 2) ∧
    ¬ ((keyboard [0x41, 0x42]).kind = .keyboard ∧ (keyboard [0x41, 0x42]).buffer.length < 2) ∧
    ¬ ((diskRead 1 [1]).kind = .keyboard ∧ (diskRead 1 [1]).buffer.length < 2) ∧
    ((1 : Byte), (0 : Byte)) ≠ ((0 : Nibble).setWidth 8, 0) := by decide

theorem witness_PutDataWritesTheDevice :
    (withDevices (allDevices []) (machine 0 0 [])).lookup ((1 : Nibble).setWidth 8) 0 = some display ∧
    display.kind = .display ∧
    (withDevices (allDevices []) (machine 0 0 [])).lookup ((3 : Nibble).setWidth 8) 2 = some (diskWrite 2) ∧
    (diskWrite 2).kind = .disk .write "F" ∧ "G" ≠ "F" := by decide

theorem witness_DeviceInstructionsFault :
    let s := withDevices (allDevices []) (machine 0 0 [])
    s.lookup ((2 : Nibble).setWidth 8) 9 = none ∧ s.lookup ((9 : Nibble).setWidth 8) 0 = none ∧
    s.lookup ((1 : Nibble).setWidth 8) 0 = some display ∧ s.lookup ((2 : Nibble).setWidth 8) 0 = some printer ∧
    s.lookup ((3 : Nibble).setWidth 8) 2 = some (diskWrite 2) ∧ (diskWrite 2).kind = .disk .write "F" ∧
    s.lookup ((0 : Nibble).setWidth 8) 0 = some (keyboard []) ∧
    s.lookup ((3 : Nibble).setWidth 8) 1 = some (diskRead 1 [1, 2, 3]) ∧ (diskRead 1 []).kind = .disk .read "F" := by
  decide

/-! ### Witnesses: the OS trap -/

/-- A wrong count, an AC outside the status table and one inside it. -/
theorem witness_PrintStatusChecksThenEmits :
    let s : State := { machine 0 5 [] with config := { HostConfig.default with statusCodes := [(5, "five"), (0, "zero")] } }
    (1 : Nibble) ≠ 0 ∧ (∃ p ∈ s.config.statusCodes, p.1 = s.ac) ∧
    (∀ p ∈ s.config.statusCodes, p.1 ≠ ({ s with ac := 6 } : State).ac) := by decide

/-- A status table with the code: the step emits the status. -/
theorem test_printStatus_emits :
    (after { machine 0x020 5 [(0x020, 0xF0EE)] with
      config := { HostConfig.default with statusCodes := [(5, "five")] } }).map (fun t => (t.events, t.ic)) =
      some ([.status 5], 0x022) := by decide

theorem witness_StackGetters :
    (machine 0 0 []).ac = 0 ∧
    ((machine 0 2 [(0xFFE, 0xFFE)]).ac = 2 ∧ (machine 0 2 [(0xFFE, 0xFFE)]).wordHere 0xFFE = 0xFFE ∧
      (0xFFE : Word).toNat ≤ 0xFFE) ∧
    ((machine 0 2 [(0xFFE, 0xFFF)]).wordHere 0xFFE = 0xFFF ∧ 0xFFE < (0xFFF : Word).toNat) := by decide

/-- The argument at the lowest and at the highest place it can have; the pointer at its own address and below. -/
theorem witness_StackSetters :
    ([(0x002, 0x000, 1), (0x1000, 0xFFE, 1), (0x002, 0x000, 3), (0x1000, 0xFFE, 3)] : List (Word × Nat × Word)).all (fun p =>
      let s : State := { machine 0 p.2.2 [(0x000, 0x1234), (0xFFE, 0x0E00)] with mar := p.1 }
      decide (Memory.wf s.mem = true ∧ (s.mar - 2).toNat ≤ 0xFFE ∧ (s.mar - 2).toNat = p.2.1 ∧
        s.wordHere (s.mar - 2).toNat = s.wordHere p.2.1 ∧ s.ac = p.2.2 ∧ s.wordHere 0xFFE = 0x0E00 ∧
        (0x0E00 : Word).toNat ≤ 0xFFE)) = true := by decide

/-- Each clause at its boundary: selector 4; wrong counts; an argument just out of range at both ends; a pointer just out
of range. -/
theorem witness_StackFaults :
    4 ≤ (machine 0 4 []).ac.toNat ∧ ((machine 0 2 []).ac = 2 ∧ (1 : Nibble) ≠ 0) ∧
    ((machine 0 3 []).ac = 3 ∧ (0 : Nibble) ≠ 1) ∧
    ([0x000, 0x001, 0x1001] : List Word).all (fun mar =>
      decide (0xFFE < (({ machine 0 1 [] with mar := mar } : State).mar - 2).toNat)) = true ∧
    (let s : State := { machine 0 3 [(0xFFE, 0x0FFF)] with mar := 0x002 }
     s.ac = 3 ∧ (s.mar - 2).toNat ≤ 0xFFE ∧ 0xFFE < (s.wordHere 0xFFE).toNat) := by decide

theorem witness_BitwiseOnWordsBelowMar :
    ([0, 1, 2, 3] : List Word).all (fun ac =>
      let s : State := { machine 0 ac [(0x002, 0xAAAA), (0x000, 0x5555)] with mar := 0x004 }
      decide ((s.mar - 2).toNat ≤ 0xFFE ∧ s.wordHere (s.mar - 2).toNat = 0xAAAA ∧ (s.mar - 2 - 2).toNat ≤ 0xFFE ∧
        s.wordHere (s.mar - 2 - 2).toNat = 0x5555 ∧ s.ac = ac)) = true := by decide

theorem witness_BitwiseFaults :
    4 ≤ (machine 0 4 []).ac.toNat ∧
    (let s : State := { machine 0 3 [] with mar := 0x001 }
     s.ac.toNat < 4 ∧ 0xFFE < (s.mar - 2).toNat) ∧
    (let s : State := { machine 0 1 [] with mar := 0x002 }
     1 ≤ s.ac.toNat ∧ s.ac.toNat < 4 ∧ (s.mar - 2).toNat ≤ 0xFFE ∧ 0xFFE < (s.mar - 2 - 2).toNat) := by decide

/-- A keyboard and a disk, cleaned and appended; another device beside it. -/
theorem witness_BufferControlCleansOrAppends :
    [((0 : Word), (0x0000 : Word), keyboard [0x41]), (1, 0x0000, keyboard [0x41]), (0, 0x0301, diskRead 1 [1, 2, 3]),
      (1, 0x0301, diskRead 1 [1, 2, 3])].all (fun p =>
      let w := p.2.1
      let d := p.2.2
      let s : State := { withDevices (allDevices [0x41]) (machine 0 p.1 [(0x00E, w)]) with mar := 0x010 }
      decide ((s.mar - 2).toNat ≤ 0xFFE ∧ s.wordHere (s.mar - 2).toNat = w ∧
        s.lookup (w.extractLsb' 8 8) (w.extractLsb' 0 8) = some d ∧ d.kind.buffered = true ∧ s.ac = p.1 ∧
        (d.kind = .keyboard ∨ d.kind = .disk .read "F") ∧
        ((1 : Byte), (0 : Byte)) ≠ (w.extractLsb' 8 8, w.extractLsb' 0 8))) = true := by decide

theorem witness_BufferControlFaults :
    0xFFE < (({ machine 0 0 [] with mar := 0x001 } : State).mar - 2).toNat ∧
    ([0x0209, 0x1000] : List Word).all (fun w =>
      let s : State := { withDevices (allDevices []) (machine 0 5 [(0x00E, w)]) with mar := 0x010 }
      decide ((s.mar - 2).toNat ≤ 0xFFE ∧ s.wordHere (s.mar - 2).toNat = w ∧
        s.lookup (w.extractLsb' 8 8) (w.extractLsb' 0 8) = none)) = true ∧
    [((0x0100 : Word), display), (0x0200, printer), (0x0302, diskWrite 2)].all (fun p =>
      let s : State := { withDevices (allDevices []) (machine 0 1 [(0x00E, p.1)]) with mar := 0x010 }
      decide ((s.mar - 2).toNat ≤ 0xFFE ∧ s.wordHere (s.mar - 2).toNat = p.1 ∧
        s.lookup (p.1.extractLsb' 8 8) (p.1.extractLsb' 0 8) = some p.2 ∧ s.ac.toNat < 2 ∧
        2 ≤ ({ s with ac := 2 } : State).ac.toNat ∧
        (p.2.kind = .display ∨ p.2.kind = .printer ∨ p.2.kind = .disk .write "F"))) = true := by decide

theorem witness_UnknownTrapEmitsDiagnostic :
    ([0x00, 0x02, 0xED, 0xF0, 0xFF] : List Byte).all (fun code =>
      decide (code ∉ ([0xEE, 0xEF, 0x57, 0x01, 0x0D, 0x71] : List Byte))) = true := by decide

/-! ### Witnesses: the host port -/

theorem witness_LoadWritesInOrder :
    (∃ t, hostLoad State.reset [[0x100, 0x1234]] = .ok t) ∧ (0x101 : Word).toNat ≤ 0xFFE ∧ (0xFFE : Word).toNat ≤ 0xFFE :=
  ⟨⟨_, rfl⟩, by decide, by decide⟩

theorem witness_LoadFailsWhole :
    (∃ e ∈ ([[0, 0x1111], [0x002]] : List (List Word)), e.length ≠ 2) ∧
    (∀ e ∈ ([[0, 0x1111], [0xFFF, 0x0001]] : List (List Word)), e.length = 2) ∧
    [0xFFF, 0x0001] ∈ ([[0, 0x1111], [0xFFF, 0x0001]] : List (List Word)) ∧ 0xFFE < (0xFFF : Word).toNat := by decide

/-- A run that halts and one that faults. -/
theorem witness_RunEndsAsTheLastStepDid :
    (∃ t, hostRun (machine 0 0 [(0x010, 0xC000)]) 0x010 1 = .halted t) ∧
    (∃ t, hostRun (machine 0 0 []) 0xFFF 1 = .faulted t) := ⟨⟨_, rfl⟩, ⟨_, rfl⟩⟩

theorem witness_ConstructionLeaves :
    State.reset = State.construct .default [] 0 0 0 0 0 ∧
    ∃ t, t = hostReconstruct (machine 0 0 []) .default 0 0 0 0 0 := ⟨rfl, _, rfl⟩

theorem witness_DeviceManagement :
    (DeviceKind.keyboard.type, (0 : Byte)) ∈ State.reset.devices.map Device.key ∧
    ((DeviceKind.disk .read "F").type, (1 : Byte)) ∉ State.reset.devices.map Device.key ∧
    ((DeviceKind.disk .write "F").type, (1 : Byte)) ∉ State.reset.devices.map Device.key ∧ "G" ≠ "F" ∧
    (DeviceKind.printer.type, (0 : Byte)) ∉ State.reset.devices.map Device.key ∧
    (State.reset.devices.map Device.key).Nodup := by decide

end Sys2Proof.Tests
end

/-! ## What an instruction may write

The rules of the shared operations as postconditions, the frame of every instruction, and what follows from it about the
registers (10_state.md). -/

namespace Sys2Proof.Machine

/-! ### Postconditions of the shared operations

To show `Q` of the state an operation ends in, show it after each thing the operation can do. -/

section Post
variable {Q : State → Prop} {s : State}

theorem readInto_post {a : Word} {rest : State → State}
    (ok : wordInRange a = true → Q (rest { s with mar := a, mdr := s.wordHere a.toNat }))
    (fault : wordInRange a = false → Q (State.raise { s with mar := a } (.outOfRange a))) : Q (readInto s a rest) := by
  rcases readInto_cases s a rest with ⟨hr, h⟩ | ⟨hr, h⟩ <;> rw [h]
  · exact ok hr
  · exact fault hr

theorem popWord_post {rest : State → State}
    (ok : wordInRange (s.mar - 2) = true →
      Q (rest { s with mar := s.mar - 2, mdr := s.wordHere (s.mar - 2).toNat }))
    (fault : wordInRange (s.mar - 2) = false → Q (State.raise { s with mar := s.mar - 2 } (.outOfRange (s.mar - 2)))) :
    Q (popWord s rest) :=
  readInto_post ok fault

theorem writeFrom_post {a v : Word} {rest : State → State}
    (ok : wordInRange a = true → Q (rest { s with mar := a, mdr := v, mem := storeWord s.mem a.toNat v }))
    (fault : wordInRange a = false → Q (State.raise { s with mar := a, mdr := v } (.outOfRange a))) :
    Q (writeFrom s a v rest) := by
  rcases writeFrom_cases s a v rest with ⟨hr, h⟩ | ⟨hr, h⟩ <;> rw [h]
  · exact ok hr
  · exact fault hr

theorem aluIntoAc_post {code : Nibble} {a b : Word} {rest : State → State}
    (ok : ∀ r, aluWord code a b = .ok r → Q (rest { s with ac := r }))
    (fault : ∀ f, aluWord code a b = .error f → Q (s.raise f)) : Q (aluIntoAc s code a b rest) := by
  rcases aluIntoAc_cases s code a b rest with ⟨r, hr, h⟩ | ⟨f, hf, h⟩ <;> rw [h]
  · exact ok r hr
  · exact fault f hf

theorem devRead_post {t i : Byte} {rest : Word → State → State}
    (ok : ∀ d, s.lookup t i = some d → d.kind.readable = true → Q (rest (s.getData t i d).1 (s.getData t i d).2))
    (fault : ∀ f, Q (s.raise f)) : Q (devRead s t i rest) := by
  rcases devRead_cases s t i rest with ⟨-, h⟩ | ⟨d, -, -, h⟩ | ⟨d, hd, hr, h⟩ <;> rw [h]
  · exact fault _
  · exact fault _
  · exact ok d hd hr

theorem devWrite_post {t i : Byte} {w : Word} {rest : State → State}
    (ok : ∀ d, s.lookup t i = some d → d.kind.writable = true → Q (rest (s.putData t i d w)))
    (fault : ∀ f, Q (s.raise f)) : Q (devWrite s t i w rest) := by
  rcases devWrite_cases s t i w rest with ⟨-, h⟩ | ⟨d, -, -, h⟩ | ⟨d, hd, hr, h⟩ <;> rw [h]
  · exact fault _
  · exact fault _
  · exact ok d hd hr

end Post

/-! ### Case analysis of the selected services -/

/-- An AC selects the first, second, third or fourth service, or is above all selectors. -/
theorem selector_cases (a : Word) : a = 0 ∨ a = 1 ∨ a = 2 ∨ a = 3 ∨ 4 ≤ a.toNat := by
  bv_omega

theorem stackArgc_of_four_le {a : Word} (h : 4 ≤ a.toNat) : stackArgc a = none := by
  unfold stackArgc
  split
  case h_5 => rfl
  all_goals omega

/-- The stack selectors and the argument count of each (47_os_trap.md R290). -/
theorem stackArgc_eq_some {a : Word} {n : Nibble} (h : stackArgc a = some n) :
    (a = 0 ∧ n = 0) ∨ (a = 1 ∧ n = 1) ∨ (a = 2 ∧ n = 0) ∨ (a = 3 ∧ n = 1) := by
  rcases selector_cases a with rfl | rfl | rfl | rfl | ha
  case inr.inr.inr.inr => simp [stackArgc_of_four_le ha] at h
  all_goals
    cases h
    decide

/-- Everything OS 0x57 can do, in the order of its checks (47_os_trap.md R290). -/
theorem execOsStack_cases (argc : Nibble) (s : State) :
    (4 ≤ s.ac.toNat ∧ execOsStack argc s = .next (s.raise (.invalidServiceSelector 0x57 s.ac))) ∨
    (∃ expected, stackArgc s.ac = some expected ∧ argc ≠ expected ∧
      execOsStack argc s = .next (s.raise (.argumentCountMismatch 0x57 expected argc))) ∨
    (s.ac = 0 ∧ argc = 0 ∧ execOsStack argc s = .next (stackGetPointer s)) ∨
    (s.ac = 1 ∧ argc = 1 ∧ execOsStack argc s = .next (stackSetPointer s)) ∨
    (s.ac = 2 ∧ argc = 0 ∧ execOsStack argc s = .next (stackGetTop s)) ∨
    (s.ac = 3 ∧ argc = 1 ∧ execOsStack argc s = .next (stackSetTop s)) := by
  cases hsel : stackArgc s.ac with
  | none =>
    have hac : 4 ≤ s.ac.toNat := by
      rcases selector_cases s.ac with h | h | h | h | h
      case inr.inr.inr.inr => exact h
      all_goals simp [h, stackArgc] at hsel
    exact .inl ⟨hac, by simp [execOsStack, hsel]⟩
  | some expected =>
    refine .inr ?_
    by_cases hargc : argc = expected
    · subst hargc
      rcases stackArgc_eq_some hsel with ⟨h, rfl⟩ | ⟨h, rfl⟩ | ⟨h, rfl⟩ | ⟨h, rfl⟩ <;> simp [execOsStack, stackArgc, h]
    · exact .inl ⟨expected, rfl, hargc, by simp [execOsStack, hsel, hargc]⟩

/-- Everything the service of OS 0x0D can do on a device: fault, or replace one buffer and say so (R300). -/
theorem bufferService_cases (s : State) (t i : Byte) (d : Device) :
    (∃ f, bufferService s t i d = s.raise f) ∨
    ∃ b lines n e, (e = .bufferCleaned t i ∨ e = .bufferAppended t i) ∧
      bufferService s t i d = osEnd (State.emit
        { s with devices := setFirstBuffer (Device.answers s.config.typeCodes t i) b s.devices, inputs := lines,
                 draws := n } e) := by
  unfold bufferService
  split
  · split
    · exact .inr ⟨[], s.inputs, s.draws, _, .inl rfl, rfl⟩
    · exact .inl ⟨_, rfl⟩
  · split
    · obtain ⟨b, lines, n, h⟩ := appendBuffer_cases s t i d ‹_›
      exact .inr ⟨b, lines, n, _, .inr rfl, by rw [h]⟩
    · exact .inl ⟨_, rfl⟩
  · exact .inl ⟨_, rfl⟩

/-! ### The frame of every instruction -/

/-- `s` with the fields that the execute phase of `i` may write taken from `t`. TrapState, where written, has the value the
rules give it: HALT leaves Running either way (45_halt.md R250), OS 0xEF saves IC + 2 (47_os_trap.md R286). -/
def frameOf (i : Instr) (s t : State) : State :=
  match i with
  | .jump _ | .jumpIfZero _ | .jumpIfNeg _ => { s with ic := t.ic, continues := t.continues }
  | .loadValue _ => { s with ac := t.ac, ic := t.ic, continues := t.continues }
  | .add _ | .sub _ | .mul _ | .div _ | .load _ | .osBitwise _ =>
    { s with mar := t.mar, mdr := t.mdr, ac := t.ac, ic := t.ic, faultRecord := t.faultRecord, continues := t.continues }
  | .memory _ | .subroutine _ =>
    { s with mar := t.mar, mdr := t.mdr, mem := t.mem, ic := t.ic, faultRecord := t.faultRecord,
             continues := t.continues }
  | .ret _ =>
    { s with mar := t.mar, mdr := t.mdr, ic := t.ic, faultRecord := t.faultRecord, continues := t.continues }
  | .halt _ => { s with trap := .running, ic := t.ic, continues := t.continues }
  | .getData _ _ =>
    { s with ac := t.ac, devices := t.devices, inputs := t.inputs, draws := t.draws, ic := t.ic,
             faultRecord := t.faultRecord, continues := t.continues }
  | .putData _ _ =>
    { s with files := t.files, events := t.events, ic := t.ic, faultRecord := t.faultRecord, continues := t.continues }
  | .osPrintStatus _ => { s with events := t.events, ic := t.ic, faultRecord := t.faultRecord, continues := t.continues }
  | .osSoftwareCall _ => { s with trap := .inTrap (s.ic + 2), ic := t.ic, continues := t.continues }
  | .osStack _ =>
    { s with mar := t.mar, mdr := t.mdr, ac := t.ac, mem := t.mem, ic := t.ic, faultRecord := t.faultRecord,
             continues := t.continues }
  | .osBufferControl _ =>
    { s with mar := t.mar, mdr := t.mdr, devices := t.devices, inputs := t.inputs, draws := t.draws, events := t.events,
             ic := t.ic, faultRecord := t.faultRecord, continues := t.continues }
  | .osDelay _ | .osUnknown _ _ => { s with events := t.events, ic := t.ic, continues := t.continues }

/-- From `s` to `t` only the fields that `i` may write have changed. -/
def Framed (i : Instr) (s t : State) : Prop := t = frameOf i s t

theorem jumpIf_done_frame (taken : Bool) (oi : Operand) (s : State) :
    (jumpIf taken oi s).done = { s with ic := (jumpIf taken oi s).ic, continues := some true } := by
  cases taken <;> rfl

/-- ADD, SUB, MUL and DIV have one datapath (43_accumulator_memory.md R225), so one frame. -/
theorem accumulate_framed (code : Nibble) (oi : Operand) (s : State) : Framed (.add oi) s (accumulate code oi s) :=
  readInto_post (fun _ => aluIntoAc_post (fun _ _ => rfl) fun _ _ => rfl) fun _ => rfl

theorem execHalt_framed {oi : Operand} {s t : State} (h : execHalt oi s = .next t) : Framed (.halt oi) s t := by
  unfold execHalt at h
  split at h <;> cases h
  · rename_i hs
    simp [Framed, frameOf, State.stop, ← hs]
  · rfl

theorem execOsStack_framed {argc : Nibble} {s t : State} (h : execOsStack argc s = .next t) :
    Framed (.osStack argc) s t := by
  rcases execOsStack_cases argc s with
    ⟨-, h'⟩ | ⟨_, -, -, h'⟩ | ⟨-, -, h'⟩ | ⟨-, -, h'⟩ | ⟨-, -, h'⟩ | ⟨-, -, h'⟩ <;> cases h.symm.trans h'
  · rfl
  · rfl
  · exact readInto_post (fun _ => rfl) fun _ => rfl
  · exact popWord_post (fun _ => writeFrom_post (fun _ => rfl) fun _ => rfl) fun _ => rfl
  · exact readInto_post (fun _ => readInto_post (fun _ => rfl) fun _ => rfl) fun _ => rfl
  · exact popWord_post (fun _ => readInto_post (fun _ => writeFrom_post (fun _ => rfl) fun _ => rfl) fun _ => rfl)
      fun _ => rfl

theorem execOsBitwise_framed {argc : Nibble} {s t : State} (h : execOsBitwise argc s = .next t) :
    Framed (.osBitwise argc) s t := by
  have two (code : Nibble) : Framed (.osBitwise argc) s (bitwiseTwo code s) :=
    popWord_post (fun _ => popWord_post (fun _ => aluIntoAc_post (fun _ _ => rfl) fun _ _ => rfl) fun _ => rfl)
      fun _ => rfl
  cases h
  split
  · exact popWord_post (fun _ => aluIntoAc_post (fun _ _ => rfl) fun _ _ => rfl) fun _ => rfl
  · exact two _
  · exact two _
  · exact two _
  · rfl

/-- Every instruction keeps to its frame. -/
theorem exec_framed {i : Instr} {s t : State} (h : exec i s = .next t) : Framed i s t := by
  cases i
  case jump | jumpIfZero | jumpIfNeg => cases h; exact jumpIf_done_frame _ _ s
  case loadValue | osSoftwareCall | osDelay | osUnknown => cases h; rfl
  case add | sub | mul | div => cases h; exact accumulate_framed _ _ s
  case load | ret => cases h; exact readInto_post (fun _ => rfl) fun _ => rfl
  case memory | subroutine => cases h; exact writeFrom_post (fun _ => rfl) fun _ => rfl
  case halt => exact execHalt_framed h
  case getData dt k =>
    cases h
    refine devRead_post (fun d _ _ => ?_) fun _ => rfl
    obtain ⟨b, lines, n, hd⟩ := getData_cases s (selectorCode dt) k d
    rw [hd]
    rfl
  case putData dt k =>
    cases h
    refine devWrite_post (fun d _ _ => ?_) fun _ => rfl
    rw [putData_eq]
    rfl
  case osPrintStatus =>
    cases h
    split
    · rfl
    · split <;> rfl
  case osStack argc => exact execOsStack_framed h
  case osBitwise => exact execOsBitwise_framed h
  case osBufferControl argc =>
    cases h
    refine popWord_post (fun _ => ?_) fun _ => rfl
    split
    · rfl
    · rcases bufferService_cases _ _ _ _ with ⟨f, hf⟩ | ⟨b, lines, n, e, -, hb⟩
      · rw [hf]; rfl
      · rw [hb]; rfl

/-- No instruction writes what decode set, or the host's configuration. -/
theorem exec_keeps_decoded {i : Instr} {s t : State} (h : exec i s = .next t) :
    t.ir = s.ir ∧ t.op = s.op ∧ t.oi = s.oi ∧ t.stepCount = s.stepCount ∧ t.config = s.config := by
  have hf : t = frameOf i s t := exec_framed h
  rw [hf]
  cases i <;> exact ⟨rfl, rfl, rfl, rfl, rfl⟩

/-! ### The setters of OS 0x57 keep AC -/

theorem stackSetPointer_ac (s : State) : (stackSetPointer s).ac = s.ac :=
  popWord_post (Q := (·.ac = s.ac)) (fun _ => writeFrom_post (Q := (·.ac = s.ac)) (fun _ => rfl) fun _ => rfl)
    fun _ => rfl

theorem stackSetTop_ac (s : State) : (stackSetTop s).ac = s.ac :=
  popWord_post (Q := (·.ac = s.ac))
    (fun _ => readInto_post (Q := (·.ac = s.ac))
      (fun _ => writeFrom_post (Q := (·.ac = s.ac)) (fun _ => rfl) fun _ => rfl) fun _ => rfl) fun _ => rfl

/-- OS 0x57 writes AC only with a getter's selector. -/
theorem execOsStack_ac {argc : Nibble} {s t : State} (h : execOsStack argc s = .next t) (hne : t.ac ≠ s.ac) :
    s.ac = 0 ∨ s.ac = 2 := by
  rcases execOsStack_cases argc s with
    ⟨-, h'⟩ | ⟨_, -, -, h'⟩ | ⟨hac, -⟩ | ⟨-, -, h'⟩ | ⟨hac, -⟩ | ⟨-, -, h'⟩
  case inr.inr.inl => exact .inl hac
  case inr.inr.inr.inr.inl => exact .inr hac
  all_goals cases h.symm.trans h'
  · exact absurd rfl hne
  · exact absurd rfl hne
  · exact absurd (stackSetPointer_ac s) hne
  · exact absurd (stackSetTop_ac s) hne

/-! ### Pending interrupts -/

theorem not_interruptDue_of_noInterrupt {s : State} (h : s.noInterrupt) : ¬ s.interruptDue := by
  rintro ⟨hon, hlim⟩
  rcases h with h | h
  · simp [hon] at h
  · omega

/-! ### The statements of 10_state.md -/

/-- Settles O9: a fetch fault ends before decode, and no instruction writes StepCount after it. -/
theorem stepCountMovesOnlyInDecode : Obligations.StepCountMovesOnlyInDecode := by
  intro s t h
  rcases (step_next_cases h).2 with ⟨hr, rfl⟩ | ⟨hr, hi, hx⟩ | ⟨hr, hi, hx⟩
  · have hic : ¬ s.ic.toNat ≤ 0xFFE := by simp [← wordInRange_iff, hr]
    exact ⟨fun _ => rfl, fun h => absurd h hic, fun h => absurd h hic⟩
  · have hic : s.ic.toNat ≤ 0xFFE := wordInRange_iff.1 hr
    obtain ⟨-, -, -, hcount, -⟩ := exec_keeps_decoded hx
    exact ⟨fun h => by omega, fun _ _ => hcount, fun _ hd => absurd hd (not_interruptDue_of_noInterrupt hi)⟩
  · have hic : s.ic.toNat ≤ 0xFFE := wordInRange_iff.1 hr
    obtain ⟨-, -, -, hcount, -⟩ := exec_keeps_decoded hx
    exact ⟨fun h => by omega, fun _ hn => absurd hi (not_interruptDue_of_noInterrupt hn), fun _ _ => hcount⟩

/-- Settles O16, from the frame of every instruction. -/
theorem trapStateWrittenOnlyByCallAndReturn : Obligations.TrapStateWrittenOnlyByCallAndReturn := by
  intro i s t h hne
  have htrap : t.trap = (frameOf i s t).trap := congrArg State.trap (exec_framed h)
  cases i
  case osSoftwareCall argc => exact .inl ⟨argc, rfl, htrap⟩
  case halt oi =>
    cases hs : s.trap with
    | running => exact absurd (htrap.trans hs.symm) hne
    | inTrap r => exact .inr ⟨oi, r, rfl, rfl, htrap⟩
  all_goals exact absurd htrap hne

/-- Settles O18, from the frame of every instruction and the setters of OS 0x57. -/
theorem accumulatorWrittenOnlyBy : Obligations.AccumulatorWrittenOnlyBy := by
  intro i s t h hne
  have hac : t.ac = (frameOf i s t).ac := congrArg State.ac (exec_framed h)
  cases i
  case loadValue oi | add oi | sub oi | mul oi | div oi | load oi => exact .inl ⟨oi, by simp⟩
  case getData dt k => exact .inr (.inl ⟨dt, k, rfl⟩)
  case osStack argc => exact .inr (.inr ⟨argc, .inl ⟨rfl, execOsStack_ac h hne⟩⟩)
  case osBitwise argc => exact .inr (.inr ⟨argc, .inr rfl⟩)
  all_goals exact absurd hac hne

/-- Settles O19, from the frame of every instruction. -/
theorem otherRegistersWrittenOnlyBy : Obligations.OtherRegistersWrittenOnlyBy := by
  intro i s t h
  refine ⟨fun hne => ?_, exec_keeps_decoded h⟩
  have hmar : t.mar = (frameOf i s t).mar := congrArg State.mar (exec_framed h)
  have hmdr : t.mdr = (frameOf i s t).mdr := congrArg State.mdr (exec_framed h)
  cases i
  case add oi | sub oi | mul oi | div oi | load oi | memory oi | subroutine oi | ret oi => exact .inl ⟨oi, by simp⟩
  case osStack argc | osBitwise argc | osBufferControl argc => exact .inr ⟨argc, by simp⟩
  all_goals exact hne.elim (absurd hmar) (absurd hmdr)

/-- Settles O15: the memory is empty, the two devices differ in type, OP and OI are drawn as fields of IR, and there is no
fault record. -/
theorem invariantHoldsAfterConstruction : Obligations.InvariantHoldsAfterConstruction := by
  have hinv (config files mar mdr ic ir ac) : Inv (State.construct config files mar mdr ic ir ac) := by
    refine ⟨rfl, ?_, rfl, rfl, ?_⟩
    · show (defaultDevices.map Device.key).Nodup
      decide
    · intro r hr
      cases hr
  exact ⟨hinv, hinv _ _ _ _ _ _ _⟩

/-- Settles O59: each field is the one that construction gives. -/
theorem constructionLeaves : Obligations.ConstructionLeaves := by
  intro config files mar mdr ic ir ac
  constructor
  · rintro s rfl
    exact ⟨fun _ => rfl, rfl, rfl, rfl, rfl, rfl, rfl, rfl, rfl, rfl⟩
  · rintro s t rfl
    exact ⟨rfl, rfl⟩

end Sys2Proof.Machine

/-! ## What memory and the device table keep

What a step executes and how it ends, what an instruction does to memory, to the devices and to the output, and the
statements about the memory and the I/O port (20_memory.md) that follow. -/

namespace Sys2Proof.Machine

/-! ### What a step executes -/

/-- `f` is `s` with an instruction fetched into the address, data and instruction registers and decoded: OP and OI are the
fields of IR (41_cycle.md R190 to R193). -/
structure DecodedFrom (s f : State) : Prop where
  frame : f = { s with mar := f.mar, mdr := f.mdr, ir := f.ir, op := f.op, oi := f.oi, stepCount := f.stepCount }
  op : f.op = (f.ir.extractLsb' 12 4).setWidth 16
  oi : f.oi = (f.ir.extractLsb' 0 12).setWidth 16

section
variable {s f : State} (h : DecodedFrom s f)
include h

theorem DecodedFrom.mem : f.mem = s.mem := by rw [h.frame]
theorem DecodedFrom.devices : f.devices = s.devices := by rw [h.frame]
theorem DecodedFrom.faultRecord : f.faultRecord = s.faultRecord := by rw [h.frame]

end

/-- A step that answers a state faults in fetch, or executes one instruction in a decoded state. -/
theorem step_executes {s t : State} (h : step s = .next t) :
    t = State.raise { s with mar := s.ic } (.outOfRange s.ic) ∨ ∃ i f, DecodedFrom s f ∧ exec i f = .next t := by
  rcases (step_next_cases h).2 with ⟨-, ht⟩ | ⟨-, -, hx⟩ | ⟨-, -, hx⟩
  · exact .inl ht
  · exact .inr ⟨_, _, ⟨rfl, rfl, rfl⟩, hx⟩
  · exact .inr ⟨_, _, ⟨rfl, by simp [sentinel], by simp [sentinel]⟩, hx⟩

/-! ### How the execute phase ends -/

/-- From `s` the execute phase ends in `t`: it returns a Boolean and leaves the fault record alone, or it raises a fault
before IC has moved (41_cycle.md R198, R199; 60_exceptions.md R332). -/
inductive Ended (s t : State) : Prop where
  | completed (record : t.faultRecord = s.faultRecord) (returns : t.continues.isSome = true)
  | faulted (f : Fault) (record : t.faultRecord = some ⟨f, s.ic⟩) (counter : t.ic = s.ic) (returns : t.continues = none)

theorem raise_ended (s : State) (f : Fault) : Ended s (s.raise f) := .faulted f rfl rfl rfl

theorem accumulate_ended (code : Nibble) (oi : Operand) (s : State) : Ended s (accumulate code oi s) :=
  readInto_post (fun _ => aluIntoAc_post (fun _ _ => .completed rfl rfl) fun f _ => .faulted f rfl rfl rfl)
    fun _ => .faulted _ rfl rfl rfl

theorem execHalt_ended {oi : Operand} {s t : State} (h : execHalt oi s = .next t) : Ended s t := by
  cases h
  split <;> exact .completed rfl rfl

theorem execOsStack_ended {argc : Nibble} {s t : State} (h : execOsStack argc s = .next t) : Ended s t := by
  rcases execOsStack_cases argc s with
    ⟨-, h'⟩ | ⟨_, -, -, h'⟩ | ⟨-, -, h'⟩ | ⟨-, -, h'⟩ | ⟨-, -, h'⟩ | ⟨-, -, h'⟩ <;> cases h.symm.trans h'
  · exact raise_ended s _
  · exact raise_ended s _
  · exact readInto_post (fun _ => .completed rfl rfl) fun _ => .faulted _ rfl rfl rfl
  · exact popWord_post (fun _ => writeFrom_post (fun _ => .completed rfl rfl) fun _ => .faulted _ rfl rfl rfl)
      fun _ => .faulted _ rfl rfl rfl
  · exact readInto_post (fun _ => readInto_post (fun _ => .completed rfl rfl) fun _ => .faulted _ rfl rfl rfl)
      fun _ => .faulted _ rfl rfl rfl
  · exact popWord_post
      (fun _ => readInto_post
        (fun _ => writeFrom_post (fun _ => .completed rfl rfl) fun _ => .faulted _ rfl rfl rfl)
        fun _ => .faulted _ rfl rfl rfl)
      fun _ => .faulted _ rfl rfl rfl

theorem execOsBitwise_ended {argc : Nibble} {s t : State} (h : execOsBitwise argc s = .next t) : Ended s t := by
  have two (code : Nibble) : Ended s (bitwiseTwo code s) :=
    popWord_post
      (fun _ => popWord_post
        (fun _ => aluIntoAc_post (fun _ _ => .completed rfl rfl) fun f _ => .faulted f rfl rfl rfl)
        fun _ => .faulted _ rfl rfl rfl)
      fun _ => .faulted _ rfl rfl rfl
  cases h
  split
  · exact popWord_post
      (fun _ => aluIntoAc_post (fun _ _ => .completed rfl rfl) fun f _ => .faulted f rfl rfl rfl)
      fun _ => .faulted _ rfl rfl rfl
  · exact two _
  · exact two _
  · exact two _
  · exact raise_ended s _

/-- Every instruction ends its step with a return value or with a fault. -/
theorem exec_ended {i : Instr} {s t : State} (h : exec i s = .next t) : Ended s t := by
  cases i
  case jump | jumpIfZero | jumpIfNeg =>
    cases h
    rw [jumpIf_done_frame]
    exact .completed rfl rfl
  case loadValue | osSoftwareCall | osDelay | osUnknown => cases h; exact .completed rfl rfl
  case add | sub | mul | div => cases h; exact accumulate_ended _ _ s
  case load | ret =>
    cases h
    exact readInto_post (fun _ => .completed rfl rfl) fun _ => .faulted _ rfl rfl rfl
  case memory | subroutine =>
    cases h
    exact writeFrom_post (fun _ => .completed rfl rfl) fun _ => .faulted _ rfl rfl rfl
  case halt oi => exact execHalt_ended (oi := oi) h
  case getData dt k =>
    cases h
    refine devRead_post (fun d _ _ => ?_) (raise_ended s)
    obtain ⟨b, lines, n, hd⟩ := getData_cases s (selectorCode dt) k d
    rw [hd]
    exact .completed rfl rfl
  case putData dt k =>
    cases h
    refine devWrite_post (fun d _ _ => ?_) (raise_ended s)
    rw [putData_eq]
    exact .completed rfl rfl
  case osPrintStatus =>
    cases h
    split
    · exact raise_ended s _
    · split
      · exact raise_ended s _
      · exact .completed rfl rfl
  case osStack => exact execOsStack_ended h
  case osBitwise argc => exact execOsBitwise_ended (argc := argc) h
  case osBufferControl =>
    cases h
    refine popWord_post (fun _ => ?_) fun _ => .faulted _ rfl rfl rfl
    split
    · exact .faulted _ rfl rfl rfl
    · rcases bufferService_cases _ _ _ _ with ⟨f, hf⟩ | ⟨b, lines, n, e, -, hb⟩
      · rw [hf]; exact .faulted f rfl rfl rfl
      · rw [hb]; exact .completed rfl rfl

/-! ### Memory -/

/-- The instructions that store a word, and where (20_memory.md R78): MEMORY and SUBROUTINE at OI, set-pointer at SP_ADDR,
set-stacktop where the stack-pointer word says. -/
def StoresAt (i : Instr) (s : State) (a : Nat) : Prop :=
  (∃ oi, (i = .memory oi ∨ i = .subroutine oi) ∧ a = oi.toNat) ∨
  ∃ argc, i = .osStack argc ∧ ((s.ac = 1 ∧ a = 0xFFE) ∨ (s.ac = 3 ∧ a = (s.wordHere 0xFFE).toNat))

/-- From `s` to `t`, memory is as it was, or `i` has stored one word in range at its address. -/
def KeepsOrStores (i : Instr) (s t : State) : Prop :=
  t.mem = s.mem ∨ ∃ a v, StoresAt i s a.toNat ∧ wordInRange a = true ∧ t.mem = storeWord s.mem a.toNat v

theorem execOsStack_stores {argc : Nibble} {s t : State} (h : execOsStack argc s = .next t) :
    KeepsOrStores (.osStack argc) s t := by
  rcases execOsStack_cases argc s with
    ⟨-, h'⟩ | ⟨_, -, -, h'⟩ | ⟨-, -, h'⟩ | ⟨hac, -, h'⟩ | ⟨-, -, h'⟩ | ⟨hac, -, h'⟩ <;> cases h.symm.trans h'
  · exact .inl rfl
  · exact .inl rfl
  · exact readInto_post (fun _ => .inl rfl) fun _ => .inl rfl
  · exact popWord_post
      (fun _ => writeFrom_post (fun hr => .inr ⟨_, _, .inr ⟨_, rfl, .inl ⟨hac, rfl⟩⟩, hr, rfl⟩) fun _ => .inl rfl)
      fun _ => .inl rfl
  · exact readInto_post (fun _ => readInto_post (fun _ => .inl rfl) fun _ => .inl rfl) fun _ => .inl rfl
  · exact popWord_post
      (fun _ => readInto_post
        (fun _ => writeFrom_post (fun hr => .inr ⟨_, _, .inr ⟨_, rfl, .inr ⟨hac, rfl⟩⟩, hr, rfl⟩) fun _ => .inl rfl)
        fun _ => .inl rfl)
      fun _ => .inl rfl

/-- Every instruction leaves memory as it was, or stores one word at its address. -/
theorem exec_stores {i : Instr} {s t : State} (h : exec i s = .next t) : KeepsOrStores i s t := by
  have hmem : t.mem = (frameOf i s t).mem := congrArg State.mem (exec_framed h)
  cases i
  case memory oi | subroutine oi =>
    cases h
    exact writeFrom_post (fun hr => .inr ⟨_, _, .inl ⟨oi, by simp, operandWord_toNat oi⟩, hr, rfl⟩) fun _ => .inl rfl
  case osStack => exact execOsStack_stores h
  all_goals exact .inl hmem

/-- Every instruction keeps the canonical form of memory. -/
theorem exec_keeps_wf {i : Instr} {s t : State} (h : exec i s = .next t) (hs : Memory.wf s.mem = true) :
    Memory.wf t.mem = true := by
  rcases exec_stores h with hm | ⟨a, v, -, hr, hm⟩ <;> rw [hm]
  · exact hs
  · have ha : a.toNat ≤ 0xFFE := wordInRange_iff.1 hr
    exact storeWord_wf hs (by omega)

/-- Settles O17: a byte that has changed is one of the word that the instruction stored. -/
theorem memoryWrittenOnlyByStores : Obligations.MemoryWrittenOnlyByStores := by
  intro i s t b h hne
  rcases exec_stores h with hm | ⟨a, v, hat, -, hm⟩
  · exact absurd (congrArg (Memory.read · b) hm) hne
  · have hb : b = a.toNat ∨ b = a.toNat + 1 := by
      by_contra hb
      rw [not_or] at hb
      exact hne ((congrArg (Memory.read · b) hm).trans (read_storeWord_other hb.1 hb.2))
    rcases hat with ⟨oi, hi, ha⟩ | ⟨argc, hi, ⟨hac, ha⟩ | ⟨hac, ha⟩⟩ <;> rw [ha] at hb
    · exact .inl ⟨oi, hi, hb⟩
    · exact .inr ⟨argc, hi, .inl ⟨hac, hb⟩⟩
    · exact .inr ⟨argc, hi, .inr ⟨hac, hb⟩⟩

/-- Settles O25, by the laws of memory. -/
theorem storedWordReadsBack : Obligations.StoredWordReadsBack := by
  intro s a v hwf ha
  have hr : wordInRange a = true := wordInRange_iff.2 ha
  refine ⟨_, writeWord_of_inRange hr, rfl, ?_, read_storeWord_high hwf, read_storeWord_low hwf (by omega),
    fun _ => read_storeWord_other, storeWord_wf hwf (by omega)⟩
  rw [readWord_of_inRange hr, ← wordAt_eq_wordHere, wordAt_storeWord hwf (by omega)]

/-- Settles O26: from 0xFFF on, the second byte of the word is outside the address space. -/
theorem wordAccessOutOfRangeFaults : Obligations.WordAccessOutOfRangeFaults := by
  intro s a v rest ha
  have hr : wordInRange a = false := by
    rw [← Bool.not_eq_true, wordInRange_iff]
    omega
  refine ⟨?_, ?_, readInto_of_outOfRange hr, writeFrom_of_outOfRange hr⟩
  · rw [hostGetWord, readWord_of_outOfRange hr]
  · rw [hostSetWord, writeWord_of_outOfRange hr]

/-! ### The device table -/

/-- From `s` to `t` the devices are as they were, or the buffer of one has been replaced. -/
def KeepsOrRebuffers (s t : State) : Prop := t.devices = s.devices ∨ ∃ p b, t.devices = setFirstBuffer p b s.devices

/-- Every instruction leaves the devices as they were, or replaces the buffer of one. -/
theorem exec_rebuffers {i : Instr} {s t : State} (h : exec i s = .next t) : KeepsOrRebuffers s t := by
  have hdev : t.devices = (frameOf i s t).devices := congrArg State.devices (exec_framed h)
  cases i
  case getData dt k =>
    cases h
    refine devRead_post (fun d _ _ => ?_) fun _ => .inl rfl
    obtain ⟨b, lines, n, hd⟩ := getData_cases s (selectorCode dt) k d
    rw [hd]
    exact .inr ⟨_, b, rfl⟩
  case osBufferControl =>
    cases h
    refine popWord_post (fun _ => ?_) fun _ => .inl rfl
    split
    · exact .inl rfl
    · rcases bufferService_cases _ _ _ _ with ⟨f, hf⟩ | ⟨b, lines, n, e, -, hb⟩
      · rw [hf]; exact .inl rfl
      · rw [hb]; exact .inr ⟨_, b, rfl⟩
  all_goals exact .inl hdev

/-- A step too replaces at most one buffer. -/
theorem step_rebuffers {s t : State} (h : step s = .next t) : KeepsOrRebuffers s t := by
  rcases step_executes h with rfl | ⟨i, f, hf, hx⟩
  · exact .inl rfl
  · have hdev : KeepsOrRebuffers f t := exec_rebuffers hx
    rwa [KeepsOrRebuffers, hf.devices] at hdev

/-- A step keeps the (type, identifier) pairs of the device table, in order (20_memory.md R102). -/
theorem step_keeps_keys {s t : State} (h : step s = .next t) : t.devices.map Device.key = s.devices.map Device.key := by
  rcases step_rebuffers h with hd | ⟨p, b, hd⟩ <;> rw [hd]
  exact setFirstBuffer_keys p b s.devices

/-- Settles O21: a step replaces at most a buffer. -/
theorem deviceTableFixedBySteps : Obligations.DeviceTableFixedBySteps := by
  intro s t h
  rcases step_rebuffers h with hd | ⟨p, b, hd⟩ <;> rw [hd]
  exact setFirstBuffer_fixed p b s.devices

/-! ### The invariant -/

/-- Settles O14: each part of the invariant is kept by a lemma of its own about memory, the device table, what decode sets,
and the end of the execute phase. -/
theorem invariantKeptByEveryStep : Obligations.InvariantKeptByEveryStep := by
  rintro s t ⟨hmem, hkeys, hop, hoi, -⟩ h
  have hkeys' : (t.devices.map Device.key).Nodup := step_keeps_keys h ▸ hkeys
  have hnone : s.faultRecord = none := (step_next_cases h).1
  rcases step_executes h with rfl | ⟨i, f, hf, hx⟩
  · refine ⟨hmem, hkeys', hop, hoi, fun r hr => ?_⟩
    cases hr
    exact ⟨rfl, rfl⟩
  · obtain ⟨hir, htop, htoi, -, -⟩ := exec_keeps_decoded hx
    refine ⟨exec_keeps_wf hx (hf.mem ▸ hmem), hkeys', ?_, ?_, fun r hr => ?_⟩
    · rw [htop, hir, hf.op]
    · rw [htoi, hir, hf.oi]
    · cases exec_ended hx with
      | completed record returns => simp [record, hf.faultRecord, hnone] at hr
      | faulted fault record counter returns =>
        cases record.symm.trans hr
        exact ⟨returns, counter.symm⟩

/-! ### The output -/

/-- From `s` to `t` no output is lost and at most one event comes to it, and only a DiskOut changes a file: the one of the
Disk(Write) it names, by its word (20_memory.md R99, R104). -/
def OutputAppended (s t : State) : Prop :=
  (t.events = s.events ∧ t.files = s.files) ∨
  ∃ e, t.events = s.events ++ [e] ∧
    ((∀ dt k w, e ≠ .diskOut dt k w) → t.files = s.files) ∧
    ∀ dt k w, e = .diskOut dt k w →
      ∃ d path, s.lookup dt k = some d ∧ d.kind = .disk .write path ∧
        t.files.lookup path = some (writtenBytes s.files path ++ [highByte w, lowByte w]) ∧
        ∀ p, p ≠ path → t.files.lookup p = s.files.lookup p

theorem outputAppended_of_event {s t : State} {e : Event} (hev : t.events = s.events ++ [e]) (hfi : t.files = s.files)
    (he : ∀ dt k w, e ≠ .diskOut dt k w) : OutputAppended s t :=
  .inr ⟨e, hev, fun _ => hfi, fun dt k w h => absurd h (he dt k w)⟩

/-- The writable devices are the displays and the disks opened for writing (R91). -/
theorem writable_cases {k : DeviceKind} (h : k.writable = true) : k = .display ∨ ∃ path, k = .disk .write path := by
  cases k with
  | display => exact .inl rfl
  | disk mode path =>
    cases mode
    · cases h
    · exact .inr ⟨path, rfl⟩
  | keyboard | printer => cases h

/-- A device write appends its event, and to a Disk(Write)'s file its word. -/
theorem putData_outputAppended {s : State} {dt k : Byte} {d : Device} (w : Word) (hd : s.lookup dt k = some d)
    (hw : d.kind.writable = true) : OutputAppended s (s.putData dt k d w) := by
  rcases writable_cases hw with hk | ⟨path, hk⟩
  · have hput : s.putData dt k d w = s.emit (.displayOut dt k w) := by simp [State.putData, hk]
    rw [hput]
    exact outputAppended_of_event rfl rfl nofun
  · have hput : s.putData dt k d w =
        State.emit { s with files := appendToFile s.files path [highByte w, lowByte w] } (.diskOut dt k w) := by
      simp [State.putData, hk]
    rw [hput]
    refine .inr ⟨_, rfl, fun hno => absurd rfl (hno dt k w), ?_⟩
    rintro _ _ _ ⟨⟩
    exact ⟨d, path, hd, hk, lookup_appendToFile .., fun p hp => lookup_appendToFile_other hp⟩

/-- Every instruction appends at most one event, and changes a file only with a DiskOut. -/
theorem exec_outputAppended {i : Instr} {s t : State} (h : exec i s = .next t) : OutputAppended s t := by
  have hev : t.events = (frameOf i s t).events := congrArg State.events (exec_framed h)
  have hfi : t.files = (frameOf i s t).files := congrArg State.files (exec_framed h)
  cases i
  case putData dt k =>
    cases h
    exact devWrite_post (fun d hd hw => putData_outputAppended s.ac hd hw) fun _ => .inl ⟨rfl, rfl⟩
  case osPrintStatus =>
    cases h
    split
    · exact .inl ⟨rfl, rfl⟩
    · split
      · exact .inl ⟨rfl, rfl⟩
      · exact outputAppended_of_event rfl rfl nofun
  case osBufferControl =>
    cases h
    refine popWord_post (fun _ => ?_) fun _ => .inl ⟨rfl, rfl⟩
    split
    · exact .inl ⟨rfl, rfl⟩
    · rcases bufferService_cases _ _ _ _ with ⟨f, hf⟩ | ⟨b, lines, n, e, he, hb⟩
      · rw [hf]; exact .inl ⟨rfl, rfl⟩
      · rw [hb]
        refine outputAppended_of_event (e := e) rfl rfl fun _ _ _ hdisk => ?_
        rcases he with rfl | rfl <;> cases hdisk
  case osDelay | osUnknown => cases h; exact outputAppended_of_event rfl rfl nofun
  all_goals exact .inl ⟨hev, hfi⟩

/-- Settles O20: fetch and decode write no output, and no instruction does more than append. -/
theorem eventsOnlyAppended : Obligations.EventsOnlyAppended := by
  intro s t h
  show OutputAppended s t
  rcases step_executes h with rfl | ⟨i, f, hf, hx⟩
  · exact .inl ⟨rfl, rfl⟩
  · have hout := exec_outputAppended hx
    rw [hf.frame] at hout
    exact hout

/-! ### Device management -/

theorem hostAdd_of_present {s : State} {kind : DeviceKind} {id : Byte}
    (h : (kind.type, id) ∈ s.devices.map Device.key) :
    hostAdd s kind id = .error (.deviceAlreadyExists kind.type id) := by
  have hany : (s.devices.any fun d => d.key == (kind.type, id)) = true := by simpa using h
  rw [hostAdd, if_pos hany]

theorem hostAdd_of_absent {s : State} {kind : DeviceKind} {id : Byte}
    (h : (kind.type, id) ∉ s.devices.map Device.key) :
    hostAdd s kind id =
      .ok { s with devices := s.devices ++ [newDevice s kind id], files := filesWithDevice s.files kind } := by
  have hany : ¬ (s.devices.any fun d => d.key == (kind.type, id)) = true := by simpa using h
  rw [hostAdd, if_neg hany]

@[simp] theorem newDevice_kind (s : State) (kind : DeviceKind) (id : Byte) : (newDevice s kind id).kind = kind := by
  unfold newDevice
  split <;> rfl

@[simp] theorem newDevice_id (s : State) (kind : DeviceKind) (id : Byte) : (newDevice s kind id).id = id := by
  unfold newDevice
  split <;> rfl

theorem newDevice_key (s : State) (kind : DeviceKind) (id : Byte) : (newDevice s kind id).key = (kind.type, id) := by
  simp [Device.key]

/-- Only a Disk(Read) is preloaded (20_memory.md R97). -/
theorem newDevice_buffer_empty {s : State} {kind : DeviceKind} {id : Byte} (h : ∀ path, kind ≠ .disk .read path) :
    (newDevice s kind id).buffer = [] := by
  unfold newDevice
  split
  · exact absurd rfl (h _)
  all_goals rfl

/-- The disks, and no other devices, are added with an open handle. -/
theorem newDevice_handleOpen (s : State) (kind : DeviceKind) (id : Byte) :
    (newDevice s kind id).handleOpen = true ↔ ∃ mode path, kind = .disk mode path := by
  unfold newDevice
  split <;> simp

/-- Only a Disk(Write) opens a file for writing (R104). -/
theorem filesWithDevice_other {files : List (String × List Byte)} {kind : DeviceKind}
    (h : ∀ path, kind ≠ .disk .write path) : filesWithDevice files kind = files := by
  unfold filesWithDevice
  split
  · exact absurd rfl (h _)
  all_goals rfl

/-- Adding an absent pair keeps a table without duplicates one. -/
theorem nodup_keys_newDevice {s : State} {kind : DeviceKind} {id : Byte}
    (h : (kind.type, id) ∉ s.devices.map Device.key) (hnd : (s.devices.map Device.key).Nodup) :
    ((s.devices ++ [newDevice s kind id]).map Device.key).Nodup := by
  rw [List.map_append, List.map_singleton, newDevice_key, ← List.concat_eq_append]
  exact hnd.concat h

theorem mem_hostRemove_devices {s : State} {type : DeviceType} {id : Byte} {d : Device} :
    d ∈ (hostRemove s type id).devices ↔ d ∈ s.devices ∧ d.key ≠ (type, id) := by
  simp [hostRemove]

/-- Removing an absent pair changes nothing (R102). -/
theorem hostRemove_of_absent {s : State} {type : DeviceType} {id : Byte}
    (h : (type, id) ∉ s.devices.map Device.key) : hostRemove s type id = s := by
  have hkeep : (s.devices.filter fun d => d.key ≠ (type, id)) = s.devices :=
    List.filter_eq_self.2 fun d hd => by
      simpa using fun hk : d.key = (type, id) => h (hk ▸ List.mem_map_of_mem hd)
  rw [hostRemove, hkeep]

/-- Settles O60, by the lemmas about `hostAdd`, the device it makes, and `hostRemove`. -/
theorem deviceManagement : Obligations.DeviceManagement := by
  intro s kind id
  refine ⟨hostAdd_of_present, fun habs => ?_, fun d => mem_hostRemove_devices, rfl, hostRemove_of_absent⟩
  refine ⟨_, _, hostAdd_of_absent habs, rfl, newDevice_kind s kind id, newDevice_id s kind id, ?_,
    newDevice_buffer_empty, newDevice_handleOpen s kind id, ?_, filesWithDevice_other, nodup_keys_newDevice habs⟩
  · rintro path rfl
    rfl
  · rintro path rfl
    exact ⟨lookup_openForWriting s.files path, fun p hp => lookup_openForWriting_other hp⟩

end Sys2Proof.Machine

/-! ## Encoding and decoding

What decoding makes of a word's two fields, and the statements about the encoding (30_encoding.md) that follow. -/

namespace Sys2Proof.Machine

/-! ### The OS rows -/

theorem mem_knownOsCodes {code : Byte} :
    code ∈ knownOsCodes ↔ code = 0xEE ∨ code = 0xEF ∨ code = 0x57 ∨ code = 0x01 ∨ code = 0x0D ∨ code = 0x71 := by
  simp only [knownOsCodes, List.mem_cons, List.not_mem_nil, or_false]

theorem wellFormed_osUnknown {argc : Nibble} {code : Byte} :
    (Instr.osUnknown argc code).wellFormed = true ↔ code ∉ knownOsCodes := by
  simp [Instr.wellFormed]

theorem decodeOs_of_not_known {code : Byte} (argc : Nibble) (h : code ∉ knownOsCodes) :
    decodeOs argc code = .osUnknown argc code := by
  simp only [mem_knownOsCodes, not_or] at h
  obtain ⟨hEE, hEF, h57, h01, h0D, h71⟩ := h
  rw [decodeOs, if_neg hEE, if_neg hEF, if_neg h57, if_neg h01, if_neg h0D, if_neg h71]

/-- Every argument count and sub-code make one instruction, and neither is lost (R138). -/
theorem decodeOs_encodes (argc : Nibble) (code : Byte) :
    (decodeOs argc code).wellFormed = true ∧
      encode (decodeOs argc code) = wordOfFields 0xF (operandOf argc code) := by
  by_cases h : code ∈ knownOsCodes
  · rcases mem_knownOsCodes.1 h with rfl | rfl | rfl | rfl | rfl | rfl <;> exact ⟨rfl, rfl⟩
  · rw [decodeOs_of_not_known argc h]
    exact ⟨wellFormed_osUnknown.2 h, rfl⟩

/-! ### Words by their opcode field -/

/-- Opcode F leaves the choice of the row to the sub-code (R136, R140). -/
theorem decodeWord_os (argc : Nibble) (code : Byte) :
    decodeWord (wordOfFields 0xF (operandOf argc code)) = decodeOs argc code := by
  simp [decodeWord]

/-- A word is its operand under the opcode that its opcode field holds. -/
theorem wordOfFields_operandField {w : Word} {op : Nibble} (h : (opcodeField w).toNat = op.toNat) :
    wordOfFields op (operandField w) = w := by
  rw [← BitVec.eq_of_toNat_eq h, wordOfFields_fields]

/-! ### The statements -/

/-- Settles O1, by the instruction: the fields of its word are its opcode and its operands, and a well-formed
`osUnknown` has a sub-code that selects no other row. -/
theorem decodeOfEncode : Obligations.DecodeOfEncode := by
  intro i hi
  cases i
  case osPrintStatus argc | osSoftwareCall argc | osStack argc | osBitwise argc | osBufferControl argc | osDelay argc =>
    exact decodeWord_os argc _
  case osUnknown argc code =>
    exact (decodeWord_os argc code).trans (decodeOs_of_not_known argc (wellFormed_osUnknown.1 hi))
  all_goals simp [encode, decodeWord]

/-- Settles O2, by the opcode field of the word. -/
theorem encodeOfDecode : Obligations.EncodeOfDecode := by
  intro w
  unfold decodeWord
  dsimp only
  split
  case h_14 h | h_15 h =>
    exact ⟨rfl, by rw [encode, operandOf_parts]; exact wordOfFields_operandField h⟩
  case h_16 =>
    have hop : (opcodeField w).toNat = (0xF : Nibble).toNat := by
      have hlt : (opcodeField w).toNat < 16 := (opcodeField w).isLt
      simp only [imp_false] at *
      show (opcodeField w).toNat = 15
      omega
    obtain ⟨hwf, henc⟩ := decodeOs_encodes (operandHigh (operandField w)) (operandLow (operandField w))
    exact ⟨hwf, by rw [henc, operandOf_parts, wordOfFields_operandField hop]⟩
  all_goals next h => exact ⟨rfl, wordOfFields_operandField h⟩

/-- Settles O3, by the number of bytes. -/
theorem decodeReadsTwoBytes : Obligations.DecodeReadsTwoBytes := by
  refine ⟨fun hi lo rest => rfl, fun bytes h => ?_⟩
  match bytes, h with
  | [], _ => rfl
  | [_], _ => rfl

/-- Settles O4, by running the decoder on the eleven words. -/
theorem wordsOfTheSpecDecode : Obligations.WordsOfTheSpecDecode := by
  unfold Obligations.WordsOfTheSpecDecode
  decide

/-- Settles O5: the meanings of these instructions do not read the field. -/
theorem ignoredOperandBits : Obligations.IgnoredOperandBits :=
  ⟨fun _ _ _ => rfl, fun _ _ _ => ⟨rfl, rfl, rfl, rfl, fun _ => rfl⟩⟩

end Sys2Proof.Machine

/-! ## The arithmetic/logic unit

The quotient as the library's truncated division, the outcomes of the ALU's contract, and the statements about the unit
(40_alu.md) that follow. -/

namespace Sys2Proof.Machine

/-! ### Division -/

/-- Truncated division of integers, by the absolute values and the two signs as R168 computes it. -/
theorem tdiv_eq_natAbs_div : ∀ x y : Int,
    x.tdiv y = if (x < 0) ≠ (y < 0) then -((x.natAbs / y.natAbs : Nat) : Int) else (x.natAbs / y.natAbs : Nat)
  | .ofNat _, .ofNat _ => (if_neg (by simp [Int.not_ofNat_neg])).symm
  | .ofNat _, .negSucc _ => (if_pos (by simp [Int.not_ofNat_neg, Int.negSucc_lt_zero])).symm
  | .negSucc _, .ofNat _ => (if_pos (by simp [Int.not_ofNat_neg, Int.negSucc_lt_zero])).symm
  | .negSucc _, .negSucc _ => (if_neg (by simp [Int.negSucc_lt_zero])).symm

theorem aluQuotient_eq_tdiv (a b : Word) : aluQuotient a b = BitVec.ofInt 16 (a.toInt.tdiv b.toInt) := by
  rw [tdiv_eq_natAbs_div, apply_ite (BitVec.ofInt 16)]
  simp only [aluQuotient, signed16_eq_toInt, trunc16]

/-! ### The contract on integers -/

/-- A code outside the set fails, whatever the operands are (R161; log entry 18). -/
theorem aluExecute_of_badCode {code : Int} (a b : Int) (h : code ∉ [1, 2, 4, 5, 6, 7, 0xA, 0xB, 0xC, 0xD]) :
    aluExecute code a b = .error (.invalidInstruction code) :=
  if_pos h

/-- The only integer of the operand range that `trunc16` takes to 0 is 0. -/
theorem trunc16_ne_zero {v : Int} (h0 : v ≠ 0) (h : 0 ≤ v ∧ v ≤ 0xFFFF) : trunc16 v ≠ 0 := by
  intro hv
  have hmod : (v % 65536).toNat = 0 := by simpa [trunc16] using congrArg BitVec.toNat hv
  omega

section ValidCode

variable {code a b : Int} (hcode : code ∈ [1, 2, 4, 5, 6, 7, 0xA, 0xB, 0xC, 0xD])
include hcode

/-- With a code of the set, a bad operand fails, and the fault names one that is bad (R161). -/
theorem aluExecute_of_badOperand (hbad : (a < 0 ∨ 0xFFFF < a) ∨ (b < 0 ∨ 0xFFFF < b)) :
    ∃ v, (v = a ∨ v = b) ∧ (v < 0 ∨ 0xFFFF < v) ∧ aluExecute code a b = .error (.invalidOperand v) := by
  rw [aluExecute, if_neg (not_not.2 hcode)]
  by_cases ha : a < 0 ∨ 0xFFFF < a
  · exact ⟨a, .inl rfl, ha, if_pos ha⟩
  · have hb : b < 0 ∨ 0xFFFF < b := hbad.resolve_left ha
    exact ⟨b, .inr rfl, hb, by rw [if_neg ha, if_pos hb]⟩

/-- Past the two checks: the two tests give a Boolean, and every other code is a function on words. -/
theorem aluExecute_of_valid (ha : 0 ≤ a ∧ a ≤ 0xFFFF) (hb : 0 ≤ b ∧ b ≤ 0xFFFF) :
    aluExecute code a b =
      if code = 1 then .ok (.bool (aluIsZero (trunc16 a)))
      else if code = 2 then .ok (.bool (aluIsNegative (trunc16 a)))
      else (aluWord (BitVec.ofInt 4 code) (trunc16 a) (trunc16 b)).map .word := by
  rw [aluExecute, if_neg (not_not.2 hcode), if_neg (by omega), if_neg (by omega)]

/-- A valid call gives a value, except a division by 0 (R160, R163 to R171). -/
theorem aluExecute_ok_of_valid (ha : 0 ≤ a ∧ a ≤ 0xFFFF) (hb : 0 ≤ b ∧ b ≤ 0xFFFF)
    (hdiv : ¬(code = 7 ∧ b = 0)) : ∃ v, aluExecute code a b = .ok v := by
  rw [aluExecute_of_valid hcode ha hb]
  by_cases h7 : code = 7
  · subst h7
    have hquot : aluDivide (trunc16 a) (trunc16 b) = .ok (aluQuotient (trunc16 a) (trunc16 b)) :=
      aluDivide_of_ne_zero (trunc16_ne_zero (fun h0 => hdiv ⟨rfl, h0⟩) hb)
    exact ⟨_, congrArg (Except.map AluValue.word) hquot⟩
  · simp only [List.mem_cons, List.not_mem_nil, or_false, h7, false_or] at hcode
    rcases hcode with rfl | rfl | rfl | rfl | rfl | rfl | rfl | rfl | rfl <;> exact ⟨_, rfl⟩

end ValidCode

/-! ### The statements -/

/-- Settles O27, by the quotient as the library's truncated division. -/
theorem divisionTruncatesTowardsZero : Obligations.DivisionTruncatesTowardsZero := by
  intro a b
  refine ⟨fun h => ?_, fun h => h ▸ aluDivide_zero a⟩
  rw [aluDivide_of_ne_zero h, aluQuotient_eq_tdiv]

/-- Settles O28, by the outcomes of the contract: bad code, bad operand, valid call. -/
theorem aluContract : Obligations.AluContract := fun _ a b =>
  ⟨fun h => .inl (aluExecute_of_badCode a b h), aluExecute_of_badOperand,
    fun h ha0 ha hb0 hb => or_iff_not_imp_right.2 (aluExecute_ok_of_valid h ⟨ha0, ha⟩ ⟨hb0, hb⟩)⟩

end Sys2Proof.Machine

/-! ## The cycle

What a step does in each situation it starts in, which step returns false, how the step counter moves over completed steps,
and the statements about the cycle (41_cycle.md) that follow. -/

namespace Sys2Proof.Machine

/-! ### The step, by the state it starts in -/

theorem step_of_faulted {s : State} {r : FaultRecord} (h : s.faultRecord = some r) : step s = .fault r.fault := by
  simp [step, h]

theorem step_of_unfaulted {s : State} (h : s.faultRecord = none) : step s = runCycle s := by
  simp [step, h]

theorem step_of_outOfRange {s : State} (h : s.faultRecord = none) (hr : wordInRange s.ic = false) :
    step s = .next (State.raise { s with mar := s.ic } (.outOfRange s.ic)) :=
  (step_of_unfaulted h).trans (fetchThen_of_outOfRange hr)

theorem step_of_inRange {s : State} (h : s.faultRecord = none) (hr : wordInRange s.ic = true) :
    step s = executePhase (State.decodePhase { s with mar := s.ic, mdr := s.wordHere s.ic.toNat }) :=
  (step_of_unfaulted h).trans (fetchThen_of_inRange hr)

theorem step_of_noInterrupt {s : State} (h : s.faultRecord = none) (hr : wordInRange s.ic = true) (hi : s.noInterrupt) :
    step s = exec (decodeWord (s.wordHere s.ic.toNat)) s.fetched := by
  rw [step_of_inRange h hr, decodePhase_of_noInterrupt hi]
  rfl

@[simp] theorem State.fetched_trap (s : State) : s.fetched.trap = s.trap := rfl

/-- Every instruction has a meaning in every state: no arm of the dispatch is refused. -/
theorem exec_next (i : Instr) (s : State) : ∃ t, exec i s = .next t := by
  cases i <;> exact ⟨_, rfl⟩

/-! ### Which instruction stops the machine

`done` and `raise` end every path of every instruction but one, and neither returns false. -/

/-- The step that ended in this state did not return false. -/
def State.notStopped (s : State) : Prop := s.continues ≠ some false

section NotStopped
variable (s : State) {rest : State → State} (ok : ∀ x, (rest x).notStopped)

theorem notStopped_done : s.done.notStopped := by simp [State.notStopped]

theorem notStopped_raise (f : Fault) : (s.raise f).notStopped := by simp [State.notStopped]

theorem notStopped_osEnd : (osEnd s).notStopped := notStopped_done _

include ok

theorem notStopped_readInto (a : Word) : (readInto s a rest).notStopped :=
  readInto_post (fun _ => ok _) fun _ => notStopped_raise _ _

theorem notStopped_writeFrom (a v : Word) : (writeFrom s a v rest).notStopped :=
  writeFrom_post (fun _ => ok _) fun _ => notStopped_raise _ _

theorem notStopped_popWord : (popWord s rest).notStopped := notStopped_readInto s ok _

theorem notStopped_aluIntoAc (code : Nibble) (a b : Word) : (aluIntoAc s code a b rest).notStopped :=
  aluIntoAc_post (fun _ _ => ok _) fun _ _ => notStopped_raise _ _

end NotStopped

theorem execOsStack_notStopped {argc : Nibble} {s t : State} (h : execOsStack argc s = .next t) : t.notStopped := by
  rcases execOsStack_cases argc s with
    ⟨-, h'⟩ | ⟨_, -, -, h'⟩ | ⟨-, -, h'⟩ | ⟨-, -, h'⟩ | ⟨-, -, h'⟩ | ⟨-, -, h'⟩ <;> cases h.symm.trans h'
  · exact notStopped_raise _ _
  · exact notStopped_raise _ _
  · exact notStopped_readInto _ (fun _ => notStopped_osEnd _) _
  · exact notStopped_popWord _ fun _ => notStopped_writeFrom _ notStopped_osEnd _ _
  · exact notStopped_readInto _ (fun _ => notStopped_readInto _ (fun _ => notStopped_osEnd _) _) _
  · exact notStopped_popWord _ fun _ => notStopped_readInto _ (fun _ => notStopped_writeFrom _ notStopped_osEnd _ _) _

theorem execOsBitwise_notStopped {argc : Nibble} {s t : State} (h : execOsBitwise argc s = .next t) : t.notStopped := by
  have two (code : Nibble) : (bitwiseTwo code s).notStopped :=
    notStopped_popWord _ fun _ => notStopped_popWord _ fun _ => notStopped_aluIntoAc _ notStopped_osEnd _ _ _
  cases h
  split
  · exact notStopped_popWord _ fun _ => notStopped_aluIntoAc _ notStopped_osEnd _ _ _
  · exact two _
  · exact two _
  · exact two _
  · exact notStopped_raise _ _

theorem bufferService_notStopped (s : State) (t i : Byte) (d : Device) : (bufferService s t i d).notStopped := by
  rcases bufferService_cases s t i d with ⟨f, h⟩ | ⟨b, lines, n, e, -, h⟩ <;> rw [h]
  · exact notStopped_raise _ _
  · exact notStopped_osEnd _

/-- No instruction but HALT stops the machine. -/
theorem exec_notStopped {i : Instr} {s t : State} (h : exec i s = .next t) (hi : ∀ oi, i ≠ .halt oi) : t.notStopped := by
  cases i
  case halt oi => exact absurd rfl (hi oi)
  case jump | jumpIfZero | jumpIfNeg | loadValue | osSoftwareCall | osDelay | osUnknown =>
    cases h
    exact notStopped_done _
  case add | sub | mul | div =>
    cases h
    exact notStopped_readInto _ (fun _ => notStopped_aluIntoAc _ (fun _ => notStopped_done _) _ _ _) _
  case load | ret => cases h; exact notStopped_readInto _ (fun _ => notStopped_done _) _
  case memory | subroutine => cases h; exact notStopped_writeFrom _ (fun _ => notStopped_done _) _ _
  case getData => cases h; exact devRead_post (fun _ _ _ => notStopped_done _) (notStopped_raise _)
  case putData => cases h; exact devWrite_post (fun _ _ _ => notStopped_done _) (notStopped_raise _)
  case osPrintStatus =>
    cases h
    split
    · exact notStopped_raise _ _
    · split
      · exact notStopped_raise _ _
      · exact notStopped_osEnd _
  case osStack => exact execOsStack_notStopped h
  case osBitwise argc => exact execOsBitwise_notStopped (argc := argc) h
  case osBufferControl =>
    cases h
    refine notStopped_popWord _ fun x => ?_
    split
    · exact notStopped_raise _ _
    · exact bufferService_notStopped _ _ _ _

/-- HALT stops the machine exactly outside a software call (45_halt.md R250). -/
theorem execHalt_stops_iff {oi : Operand} {s t : State} (h : execHalt oi s = .next t) :
    t.continues = some false ↔ s.trap = .running := by
  cases htrap : s.trap <;> simp only [execHalt, htrap] at h <;> cases h <;> simp

/-- The execute phase returns false exactly when it executes HALT with TrapState Running (R198). -/
theorem exec_stops_iff {i : Instr} {s t : State} (h : exec i s = .next t) :
    t.continues = some false ↔ s.trap = .running ∧ ∃ oi, i = .halt oi := by
  by_cases hi : ∃ oi, i = .halt oi
  · obtain ⟨oi, rfl⟩ := hi
    simpa using execHalt_stops_iff (oi := oi) h
  · have hne : t.continues ≠ some false := exec_notStopped h (not_exists.1 hi)
    simp [hne, hi]

/-- An execute phase that neither stops nor faults returns true. -/
theorem Ended.returns_true {s t : State} (h : Ended s t) (hr : t.faultRecord = none) (hne : t.continues ≠ some false) :
    t.continues = some true := by
  cases h with
  | completed _ returns =>
    obtain ⟨b, hb⟩ := Option.isSome_iff_exists.1 returns
    cases b
    · exact absurd hb hne
    · exact hb
  | faulted f record => simp [record] at hr

/-! ### The step counter over completed steps -/

/-- A completed step counts from 0 after an interrupt is taken, and otherwise from where the counter stood; the host's
configuration stays (R192). -/
theorem CompletesTo.counts {s t : State} (h : CompletesTo s t) :
    t.config = s.config ∧ t.stepCount = (if s.timeInterruptPending then 0 else s.stepCount) + 1 := by
  obtain ⟨hstep, hrecord⟩ := h
  rcases (step_next_cases hstep).2 with ⟨-, rfl⟩ | ⟨-, hi, hx⟩ | ⟨-, hi, hx⟩
  · simp at hrecord
  · obtain ⟨-, -, -, hcount, hconfig⟩ := exec_keeps_decoded hx
    exact ⟨hconfig, by simp [not_pending_of_noInterrupt hi, hcount, State.fetched]⟩
  · obtain ⟨-, -, -, hcount, hconfig⟩ := exec_keeps_decoded hx
    exact ⟨hconfig, by simp [pending_of_interruptDue hi, hcount]⟩

theorem CompletedSteps.config {n : Nat} {s t : State} (h : CompletedSteps n s t) : t.config = s.config := by
  induction h with
  | zero => rfl
  | succ _ hlast ih => exact hlast.counts.1.trans ih

/-- From a counter of 0, or from a step that takes an interrupt, the counter is the number of completed steps until it
reaches the limit. -/
theorem CompletedSteps.stepCount {n : Nat} {s t : State} (h : CompletedSteps n s t)
    (hs : s.stepCount = 0 ∨ s.interruptDue) (hpos : 0 < n) (hn : n ≤ s.config.tiLimit) : t.stepCount = n := by
  induction h with
  | zero => omega
  | @succ n s t u hsteps hlast ih =>
    rw [hlast.counts.2]
    rcases Nat.eq_zero_or_pos n with rfl | hn0
    · cases hsteps
      rcases hs with h0 | hdue
      · simp [h0]
      · simp [pending_of_interruptDue hdue]
    · have hcount : t.stepCount = n := ih hs hn0 (by omega)
      have hi : t.noInterrupt := .inr (by rw [hcount, hsteps.config]; omega)
      simp [not_pending_of_noInterrupt hi, hcount]

/-- Between two interrupts none is pending before the limit, and one is pending at it (60_exceptions.md R341). -/
theorem CompletedSteps.interrupt {n : Nat} {s t : State} (h : CompletedSteps n s t) (hon : s.config.tiEnabled = true)
    (hcount : n ≤ s.config.tiLimit → t.stepCount = n) :
    (n < s.config.tiLimit → t.noInterrupt) ∧ (n = s.config.tiLimit → t.interruptDue) := by
  unfold State.noInterrupt State.interruptDue
  rw [h.config]
  exact ⟨fun hn => .inr (by rw [hcount hn.le]; exact hn), fun hn => ⟨hon, by rw [hcount hn.le]; exact hn.ge⟩⟩

/-! ### The statements of 41_cycle.md -/

/-- Settles O6: the bytes decode to the instruction of the word at IC, which the step executes. -/
theorem stepRunsDecodedInstruction : Obligations.StepRunsDecodedInstruction := by
  intro s i rest hrecord hic hi hdecode
  cases hdecode
  exact step_of_noInterrupt hrecord (wordInRange_iff.2 hic) hi

/-- Settles O7: fetch raises the fault before decode looks at the time interrupt. -/
theorem fetchOutOfRangeEndsTheStep : Obligations.FetchOutOfRangeEndsTheStep := by
  intro s hrecord hic
  exact step_of_outOfRange hrecord (by simpa [← wordInRange_iff] using hic.not_ge)

/-- Settles O10. -/
theorem faultedStateTakesNoStep : Obligations.FaultedStateTakesNoStep := fun _ _ => step_of_faulted

/-- Settles O11: a step without a fault record faults in fetch or executes an instruction, and each has a meaning. -/
theorem everyUnfaultedStepAnswersAState : Obligations.EveryUnfaultedStepAnswersAState := by
  intro s hrecord
  cases hr : wordInRange s.ic
  · exact ⟨_, step_of_outOfRange hrecord hr⟩
  · rw [step_of_inRange hrecord hr]
    exact exec_next _ _

/-- Settles O12: a fetch fault returns nothing, an interrupt executes SUBROUTINE, and the fetched instruction returns false
exactly when it is a HALT outside a software call. -/
theorem returnsFalseExactlyOnTrueHalt : Obligations.ReturnsFalseExactlyOnTrueHalt := by
  intro s t h
  rcases (step_next_cases h).2 with ⟨hr, rfl⟩ | ⟨hr, hi, hx⟩ | ⟨hr, hi, hx⟩
  · simp [← wordInRange_iff, hr]
  · have hic : s.ic.toNat ≤ 0xFFE := wordInRange_iff.1 hr
    refine ⟨?_, (exec_ended hx).returns_true⟩
    simpa [hic, hi] using exec_stops_iff hx
  · have hn : ¬ s.noInterrupt := fun hn => not_interruptDue_of_noInterrupt hn hi
    refine ⟨?_, (exec_ended hx).returns_true⟩
    simpa [hn] using exec_stops_iff hx

/-- Settles O22: until it reaches the limit, the step counter is the number of completed steps. -/
theorem timeInterruptPeriod : Obligations.TimeInterruptPeriod := by
  intro s t n hon hlimit h
  constructor
  · intro h0
    refine h.interrupt hon fun hn => ?_
    rcases Nat.eq_zero_or_pos n with rfl | hpos
    · cases h
      exact h0
    · exact h.stepCount (.inl h0) hpos hn
  · intro hdue
    have hperiod (hpos : 0 < n) := h.interrupt hon (h.stepCount (.inr hdue) hpos)
    exact ⟨fun hpos => (hperiod hpos).1, fun hn => (hperiod (by omega)).2 hn⟩

end Sys2Proof.Machine

/-! ## The jumps

What a taken and a not-taken jump answer, the two conditions as facts about AC, and the statements about 42_jumps.md that
follow. -/

namespace Sys2Proof.Machine

theorem jumpIf_taken (oi : Operand) (s : State) :
    (jumpIf true oi s).done = { s with ic := oi.setWidth 16, continues := some true } := rfl

theorem jumpIf_notTaken (oi : Operand) (s : State) :
    (jumpIf false oi s).done = { s with ic := s.ic + 2, continues := some true } := rfl

theorem exec_jump (oi : Operand) (s : State) : exec (.jump oi) s = .next (jumpIf true oi s).done := rfl

theorem exec_jumpIfZero (oi : Operand) (s : State) :
    exec (.jumpIfZero oi) s = .next (jumpIf (aluIsZero s.ac) oi s).done := rfl

theorem exec_jumpIfNeg (oi : Operand) (s : State) :
    exec (.jumpIfNeg oi) s = .next (jumpIf (aluIsNegative s.ac) oi s).done := rfl

theorem aluIsZero_iff {a : Word} : aluIsZero a = true ↔ a = 0x0000 := beq_iff_eq

theorem aluIsNegative_iff {a : Word} : aluIsNegative a = true ↔ 0x8000 ≤ a.toNat := by
  rw [aluIsNegative, ← BitVec.msb_eq_getLsbD_last a, BitVec.msb_eq_decide, decide_eq_true_iff]

/-- Where a step left IC out of range, the next one faults in fetch, with MAR alone written before (41_cycle.md R191). -/
theorem step_of_ic_outOfRange {s : State} {a : Word} (hrecord : s.faultRecord = none) (hic : s.ic = a)
    (hr : wordInRange a = false) :
    step s = .next { s with mar := a, faultRecord := some ⟨.outOfRange a, a⟩, continues := none } := by
  subst hic
  exact step_of_outOfRange hrecord hr

/-! ### The statements of 42_jumps.md -/

/-- Settles O29: JUMP is a jump always taken, and no word starts at the last address. -/
theorem jumpSetsIc : Obligations.JumpSetsIc := by
  constructor
  · exact fun oi s => (exec_jump oi s).trans (congrArg _ (jumpIf_taken oi s))
  · intro s t hrecord h
    rw [exec_jump, jumpIf_taken] at h
    cases h
    exact step_of_ic_outOfRange hrecord rfl (by decide)

/-- Settles O30: the condition decides between the two jumps, and the one not taken at 0xFFE leaves memory. -/
theorem jumpIfZeroTestsAc : Obligations.JumpIfZeroTestsAc := by
  intro oi s
  have hnot (hac : s.ac ≠ 0x0000) :
      exec (.jumpIfZero oi) s = .next { s with ic := s.ic + 2, continues := some true } := by
    rw [exec_jumpIfZero, Bool.eq_false_iff.2 (mt aluIsZero_iff.1 hac), jumpIf_notTaken]
  refine ⟨fun hac => ?_, hnot, fun hac hic hrecord t h => ?_⟩
  · rw [exec_jumpIfZero, aluIsZero_iff.2 hac, jumpIf_taken]
  · rw [hnot hac] at h
    cases h
    exact step_of_ic_outOfRange hrecord (congrArg (· + 2) hic) (by decide)

/-- Settles O31: bit 15 is set exactly in the words from 0x8000 on. -/
theorem jumpIfNegTestsBit15 : Obligations.JumpIfNegTestsBit15 := by
  intro oi s
  constructor
  · intro hac
    rw [exec_jumpIfNeg, aluIsNegative_iff.2 hac, jumpIf_taken]
  · intro hac
    rw [exec_jumpIfNeg, Bool.eq_false_iff.2 (mt aluIsNegative_iff.1 hac.not_ge), jumpIf_notTaken]

end Sys2Proof.Machine

/-! ## Accumulator and memory

The arms of opcodes 3 to 9, the outcomes of the datapath that ADD, SUB, MUL and DIV share, its ALU functions computed on
integers, and the statements about 43_accumulator_memory.md that follow. -/

namespace Sys2Proof.Machine

/-! ### The arms -/

theorem exec_loadValue (oi : Operand) (s : State) :
    exec (.loadValue oi) s = .next (State.advance { s with ac := oi.setWidth 16 }).done := rfl

theorem exec_add (oi : Operand) (s : State) : exec (.add oi) s = .next (accumulate 0x4 oi s) := rfl
theorem exec_sub (oi : Operand) (s : State) : exec (.sub oi) s = .next (accumulate 0x5 oi s) := rfl
theorem exec_mul (oi : Operand) (s : State) : exec (.mul oi) s = .next (accumulate 0x6 oi s) := rfl
theorem exec_div (oi : Operand) (s : State) : exec (.div oi) s = .next (accumulate 0x7 oi s) := rfl

theorem exec_load (oi : Operand) (s : State) :
    exec (.load oi) s =
      .next (readInto s (operandWord oi) fun s1 => (State.advance { s1 with ac := s1.mdr }).done) := rfl

theorem exec_memory (oi : Operand) (s : State) :
    exec (.memory oi) s = .next (writeFrom s (operandWord oi) s.ac fun s1 => s1.advance.done) := rfl

/-! ### The datapath of opcodes 4 to 7 -/

section Accumulate
variable {code : Nibble} {oi : Operand} {s : State}

theorem accumulate_of_ok {r : Word} (h : oi ≠ 0xFFF) (hr : aluWord code s.ac (s.wordHere oi.toNat) = .ok r) :
    accumulate code oi s =
      { s with
        mar := oi.setWidth 16, mdr := s.wordHere oi.toNat, ac := r, ic := s.ic + 2, continues := some true } := by
  rw [accumulate, readInto_operand h]
  exact aluIntoAc_of_ok hr

theorem accumulate_of_error {f : Fault} (h : oi ≠ 0xFFF)
    (hf : aluWord code s.ac (s.wordHere oi.toNat) = .error f) :
    accumulate code oi s =
      { s with
        mar := oi.setWidth 16, mdr := s.wordHere oi.toNat, faultRecord := some ⟨f, s.ic⟩, continues := none } := by
  rw [accumulate, readInto_operand h]
  exact aluIntoAc_of_error hf

theorem accumulate_last :
    accumulate code 0xFFF s =
      { s with mar := 0xFFF, faultRecord := some ⟨.outOfRange 0xFFF, s.ic⟩, continues := none } :=
  readInto_operand_last

end Accumulate

/-! ### The ALU on integers -/

theorem aluWord_add_ofNat (a b : Word) : aluWord 0x4 a b = .ok (BitVec.ofNat 16 (a.toNat + b.toNat)) := by
  rw [aluWord_add]
  simp [BitVec.ofNat_add]

theorem aluWord_subtract_ofInt (a b : Word) :
    aluWord 0x5 a b = .ok (BitVec.ofInt 16 ((a.toNat : Int) - b.toNat)) := by
  rw [aluWord_subtract]
  simp [Int.sub_eq_add_neg, BitVec.ofInt_add, BitVec.ofInt_neg, BitVec.sub_eq_add_neg]

theorem aluWord_multiply_ofNat (a b : Word) : aluWord 0x6 a b = .ok (BitVec.ofNat 16 (a.toNat * b.toNat)) := by
  rw [aluWord_multiply]
  simp [BitVec.ofNat_mul]

/-- A divisor other than 0 gives the truncated quotient (40_alu.md R168). -/
theorem aluWord_divide_of_ne_zero (a : Word) {b : Word} (h : b ≠ 0) :
    aluWord 0x7 a b = .ok (BitVec.ofInt 16 (a.toInt.tdiv b.toInt)) :=
  (divisionTruncatesTowardsZero a b).1 h

/-! ### The statements of 43_accumulator_memory.md -/

/-- Settles O32: the operand's 12 bits zero-extended are the operand's number as a word. -/
theorem loadValueZeroExtends : Obligations.LoadValueZeroExtends := by
  intro oi s
  rw [exec_loadValue, BitVec.ofNat_toNat, State.advance, State.done]

/-- Settles O33: the three share one datapath and differ in the ALU function alone. -/
theorem addSubMulWrap : Obligations.AddSubMulWrap := by
  intro oi s
  constructor
  · intro h
    refine ⟨?_, ?_, ?_⟩
    · rw [exec_add, accumulate_of_ok h (aluWord_add_ofNat _ _)]
    · rw [exec_sub, accumulate_of_ok h (aluWord_subtract_ofInt _ _)]
    · rw [exec_mul, accumulate_of_ok h (aluWord_multiply_ofNat _ _)]
  · rintro rfl i hi
    simp only [List.mem_cons, List.not_mem_nil, or_false] at hi
    rcases hi with rfl | rfl | rfl
    · rw [exec_add, accumulate_last]
    · rw [exec_sub, accumulate_last]
    · rw [exec_mul, accumulate_last]

/-- Settles O34: the same datapath, whose ALU function faults on a divisor of 0. -/
theorem divDividesOrFaults : Obligations.DivDividesOrFaults := by
  intro oi s
  rw [exec_div]
  refine ⟨fun h hword => ?_, fun h hword => ?_, ?_⟩
  · rw [accumulate_of_ok h (aluWord_divide_of_ne_zero _ hword)]
  · have hfault : aluWord 0x7 s.ac (s.wordHere oi.toNat) = .error (.divisionByZero s.ac) := by
      rw [hword, aluWord_divide, aluDivide_zero]
    rw [accumulate_of_error h hfault, hword]
  · rintro rfl
    rw [accumulate_last]

/-- Settles O35, by the two outcomes of a read at a direct address. -/
theorem loadReadsTheWord : Obligations.LoadReadsTheWord := by
  intro oi s
  rw [exec_load]
  constructor
  · exact fun h => congrArg _ (readInto_operand h)
  · rintro rfl
    exact congrArg _ readInto_operand_last

/-- Settles O36: the state that a write at a direct address ends in, whose bytes the laws of memory give. -/
theorem memoryStoresAc : Obligations.MemoryStoresAc := by
  intro oi s
  rw [exec_memory]
  constructor
  · intro hwf h
    have haddr : oi.toNat ≤ 0xFFF := Nat.le_of_lt_succ oi.isLt
    exact ⟨_, congrArg _ (writeFrom_operand h), rfl, read_storeWord_high hwf, read_storeWord_low hwf haddr,
      fun _ => read_storeWord_other⟩
  · rintro rfl
    exact congrArg _ writeFrom_operand_last

end Sys2Proof.Machine

/-! ## Subroutines

The arms of SUBROUTINE and RETURN, and the statements about 44_subroutine.md. -/

namespace Sys2Proof.Machine

theorem exec_subroutine (oi : Operand) (s : State) :
    exec (.subroutine oi) s =
      .next (writeFrom s (operandWord oi) (s.ic + 2) fun s1 => State.done { s1 with ic := operandWord oi + 2 }) := rfl

theorem exec_ret (oi : Operand) (s : State) :
    exec (.ret oi) s = .next (readInto s (operandWord oi) fun s1 => State.done { s1 with ic := s1.mdr }) := rfl

/-- Settles O37: the state that a write at a direct address ends in, whose word and other bytes the laws of memory give. -/
theorem subroutineSavesReturnWord : Obligations.SubroutineSavesReturnWord := by
  intro oi s
  rw [exec_subroutine]
  constructor
  · intro hwf h
    have haddr : oi.toNat ≤ 0xFFF := Nat.le_of_lt_succ oi.isLt
    exact ⟨_, congrArg _ (writeFrom_operand h), rfl, wordAt_storeWord hwf haddr, fun _ => read_storeWord_other⟩
  · rintro rfl
    exact congrArg _ writeFrom_operand_last

/-- Settles O38, by the two outcomes of a read at a direct address. -/
theorem returnLoadsIc : Obligations.ReturnLoadsIc := by
  intro oi s
  rw [exec_ret]
  constructor
  · exact fun h => congrArg _ (readInto_operand h)
  · rintro rfl
    exact congrArg _ readInto_operand_last

/-- Settles O39: RETURN loads IC from the word at OI, which is the one SUBROUTINE saved there. -/
theorem returnComesBackBehindTheCall : Obligations.ReturnComesBackBehindTheCall := by
  intro oi s t u hwf h hcall hkept
  obtain ⟨t', hcall', -, hsaved, -⟩ := (subroutineSavesReturnWord oi s).1 hwf h
  obtain rfl : t = t' := Host.Outcome.next.inj (hcall.symm.trans hcall')
  exact ⟨_, (returnLoadsIc oi u).1 h, hkept.trans hsaved, rfl⟩

end Sys2Proof.Machine

/-! ## HALT

What HALT does outside and inside a software call, and the statement about 45_halt.md. -/

namespace Sys2Proof.Machine

theorem exec_halt (oi : Operand) (s : State) : exec (.halt oi) s = execHalt oi s := rfl

theorem exec_halt_of_running (oi : Operand) {s : State} (h : s.trap = .running) : exec (.halt oi) s = .next s.stop := by
  rw [exec_halt, execHalt, h]

theorem exec_halt_of_inTrap (oi : Operand) {s : State} {r : Word} (h : s.trap = .inTrap r) :
    exec (.halt oi) s = .next (s.returnFromSoftwareCall r).done := by
  rw [exec_halt, execHalt, h]

/-- Settles O40: TrapState chooses between stopping and returning, and either writes only the fields that the statement
names. -/
theorem haltStopsOrReturns : Obligations.HaltStopsOrReturns := by
  intro oi s
  exact ⟨exec_halt_of_running oi, fun _ => exec_halt_of_inTrap oi⟩

end Sys2Proof.Machine

/-! ## Device input and output

What a device read and a device write answer in each case, the buffer a read takes its bytes from, and the statements about
46_io.md that follow. -/

namespace Sys2Proof.Machine

theorem exec_getData (dt : Nibble) (k : Byte) (s : State) :
    exec (.getData dt k) s =
      .next (devRead s (dt.setWidth 8) k fun w s1 => (State.advance { s1 with ac := w }).done) := rfl

theorem exec_putData (dt : Nibble) (k : Byte) (s : State) :
    exec (.putData dt k) s = .next (devWrite s (dt.setWidth 8) k s.ac fun s1 => s1.advance.done) := rfl

/-! ### The outcome a lookup decides -/

section Lookup
variable {s : State} {t i : Byte} {d : Device}

theorem devRead_of_absent {rest : Word → State → State} (h : s.lookup t i = none) :
    devRead s t i rest = s.raise (.deviceNotFound t i) := by
  simp only [devRead, h]

theorem devRead_of_unreadable {rest : Word → State → State} (h : s.lookup t i = some d) (hr : d.kind.readable = false) :
    devRead s t i rest = s.raise (.unreadableDevice t i) := by
  simp [devRead, h, hr]

theorem devRead_of_readable {rest : Word → State → State} (h : s.lookup t i = some d) (hr : d.kind.readable = true) :
    devRead s t i rest = rest (s.getData t i d).1 (s.getData t i d).2 := by
  simp [devRead, h, hr]

theorem devWrite_of_absent {w : Word} {rest : State → State} (h : s.lookup t i = none) :
    devWrite s t i w rest = s.raise (.deviceNotFound t i) := by
  simp only [devWrite, h]

theorem devWrite_of_unwritable {w : Word} {rest : State → State} (h : s.lookup t i = some d)
    (hw : d.kind.writable = false) : devWrite s t i w rest = s.raise (.unwritableDevice t i) := by
  simp [devWrite, h, hw]

theorem devWrite_of_writable {w : Word} {rest : State → State} (h : s.lookup t i = some d) (hw : d.kind.writable = true) :
    devWrite s t i w rest = rest (s.putData t i d w) := by
  simp [devWrite, h, hw]

/-- After a buffer is replaced, its device answers with the new buffer. -/
theorem lookup_setBuffer (h : s.lookup t i = some d) (b : List Byte) :
    (s.setBuffer t i b).lookup t i = some { d with buffer := b } :=
  (find_setFirstBuffer s.config.typeCodes t i b s.devices).trans (congrArg (Option.map _) h)

/-- Replacing a buffer leaves what answers to another pair of numbers. -/
theorem lookup_setBuffer_other {t' i' : Byte} (hne : (t', i') ≠ (t, i)) (b : List Byte) :
    (s.setBuffer t i b).lookup t' i' = s.lookup t' i' :=
  find_setFirstBuffer_other s.config.typeCodes t i t' i' b s.devices hne

end Lookup

/-! ### The buffer a read takes its word from -/

theorem takeWord_of_starved {b : List Byte} (h : b.length < 2) : takeWord b = (0, b) := by
  match b, h with
  | [], _ | [_], _ => rfl

/-- The buffer of `d` that a read takes its word from, after the pull of a line (20_memory.md R96 step 1) where there is
one, and the state after that pull. -/
def State.filledBuffer (s : State) (d : Device) : List Byte × State :=
  if d.kind = .keyboard then s.refillKeyboard d.buffer else (d.buffer, s)

theorem getData_eq (s : State) (t i : Byte) (d : Device) :
    s.getData t i d =
      ((takeWord (s.filledBuffer d).1).1, (s.filledBuffer d).2.setBuffer t i (takeWord (s.filledBuffer d).1).2) := rfl

theorem filledBuffer_of_pull {s : State} {d : Device} (h : d.kind = .keyboard ∧ d.buffer.length < 2) :
    s.filledBuffer d = (d.buffer ++ s.pullLine.1.getD [], s.pullLine.2) := by
  rw [State.filledBuffer, if_pos h.1, State.refillKeyboard, if_pos h.2]

theorem filledBuffer_of_no_pull {s : State} {d : Device} (h : ¬ (d.kind = .keyboard ∧ d.buffer.length < 2)) :
    s.filledBuffer d = (d.buffer, s) := by
  by_cases hk : d.kind = .keyboard
  · rw [State.filledBuffer, if_pos hk, State.refillKeyboard, if_neg fun hlen => h ⟨hk, hlen⟩]
  · rw [State.filledBuffer, if_neg hk]

/-- Filling a buffer changes only the environment's fields. -/
theorem filledBuffer_frame (s : State) (d : Device) :
    (s.filledBuffer d).2 = { s with inputs := (s.filledBuffer d).2.inputs, draws := (s.filledBuffer d).2.draws } := by
  by_cases h : d.kind = .keyboard ∧ d.buffer.length < 2
  · rw [filledBuffer_of_pull h]
    exact pullLine_eq s
  · rw [filledBuffer_of_no_pull h]

theorem exec_getData_of_readable {dt : Nibble} {k : Byte} {s : State} {d : Device}
    (h : s.lookup (dt.setWidth 8) k = some d) (hr : d.kind.readable = true) :
    exec (.getData dt k) s = .next
      { s.setBuffer (dt.setWidth 8) k (takeWord (s.filledBuffer d).1).2 with
        ac := (takeWord (s.filledBuffer d).1).1, ic := s.ic + 2, inputs := (s.filledBuffer d).2.inputs,
        draws := (s.filledBuffer d).2.draws, continues := some true } := by
  rw [exec_getData, devRead_of_readable h hr, getData_eq, filledBuffer_frame]
  rfl

/-! ### The event of a write -/

theorem putData_of_display {d : Device} (h : d.kind = .display) (s : State) (t i : Byte) (w : Word) :
    s.putData t i d w = s.emit (.displayOut t i w) := by
  simp only [State.putData, h]

theorem putData_of_diskWrite {d : Device} {path : String} (h : d.kind = .disk .write path) (s : State) (t i : Byte)
    (w : Word) :
    s.putData t i d w =
      State.emit { s with files := appendToFile s.files path [highByte w, lowByte w] } (.diskOut t i w) := by
  simp only [State.putData, h]

/-! ### The statements of 46_io.md -/

/-- Settles O43: the read takes its word from the filled buffer, and what is left of that buffer is the device's own. -/
theorem getDataReadsTheDevice : Obligations.GetDataReadsTheDevice := by
  intro dt k s d hd hr
  refine ⟨_, (s.filledBuffer d).1, exec_getData_of_readable hd hr, rfl, fun h => ?pull, fun h => ?noPull,
    fun b0 b1 rest h => ?taken, fun h => ?starved, fun t' k' hne => ?others⟩
  case pull => simp only [filledBuffer_of_pull h, and_self]
  case noPull => simp only [filledBuffer_of_no_pull h, and_self]
  case taken =>
    rw [h]
    exact ⟨rfl, lookup_setBuffer hd rest⟩
  case starved =>
    rw [takeWord_of_starved h]
    exact ⟨rfl, lookup_setBuffer hd _⟩
  case others => exact lookup_setBuffer_other (s := s) hne (takeWord (s.filledBuffer d).1).2

/-- Settles O44: a Display's write is its event; a Disk(Write)'s is its event and the word behind its file. -/
theorem putDataWritesTheDevice : Obligations.PutDataWritesTheDevice := by
  intro dt k s d hd
  constructor
  · intro hk
    have hw : d.kind.writable = true := by rw [hk]; rfl
    rw [exec_putData, devWrite_of_writable hd hw, putData_of_display hk]
    rfl
  · intro path hk
    have hw : d.kind.writable = true := by rw [hk]; rfl
    rw [exec_putData, devWrite_of_writable hd hw, putData_of_diskWrite hk]
    exact ⟨_, rfl, rfl, lookup_appendToFile .., fun p hp => lookup_appendToFile_other hp⟩

/-- Settles O45: where the lookup or the capability fails, the instruction raises its fault and does nothing else. -/
theorem deviceInstructionsFault : Obligations.DeviceInstructionsFault := by
  intro dt k s
  refine ⟨fun habsent i hi => ?_, fun d hd => ⟨fun hk => ?_, fun hk => ?_⟩⟩
  · rw [List.mem_pair] at hi
    rcases hi with rfl | rfl
    · exact congrArg _ (devRead_of_absent habsent)
    · exact congrArg _ (devWrite_of_absent habsent)
  · have hr : d.kind.readable = false := by rcases hk with hk | hk | ⟨path, hk⟩ <;> rw [hk] <;> rfl
    exact congrArg _ (devRead_of_unreadable hd hr)
  · have hw : d.kind.writable = false := by rcases hk with hk | hk | ⟨path, hk⟩ <;> rw [hk] <;> rfl
    exact congrArg _ (devWrite_of_unwritable hd hw)

end Sys2Proof.Machine

/-! ## The OS trap

What a word taken from below MAR does, the outcomes of each service of the stack, bitwise and buffer primitives, and the
statements about 47_os_trap.md. -/

namespace Sys2Proof.Machine

/-! ### The arms -/

theorem exec_osPrintStatus (argc : Nibble) (s : State) :
    exec (.osPrintStatus argc) s = execOsPrintStatus argc s := rfl

theorem exec_osStack (argc : Nibble) (s : State) : exec (.osStack argc) s = execOsStack argc s := rfl

theorem exec_osBitwise (argc : Nibble) (s : State) : exec (.osBitwise argc) s = execOsBitwise argc s := rfl

theorem exec_osBufferControl (argc : Nibble) (s : State) :
    exec (.osBufferControl argc) s = execOsBufferControl argc s := rfl

theorem exec_osDelay (argc : Nibble) (s : State) :
    exec (.osDelay argc) s = .next (osEnd (s.emit (.delay s.ac.toNat))) := rfl

theorem exec_osUnknown (argc : Nibble) (code : Byte) (s : State) :
    exec (.osUnknown argc code) s = .next (osEnd (s.emit (.unknownTrap code))) := rfl

/-- IC is set two below AC and the common advance adds two (47_os_trap.md R286). -/
theorem exec_osSoftwareCall (argc : Nibble) (s : State) :
    exec (.osSoftwareCall argc) s =
      .next { s with trap := .inTrap (s.ic + 2), ic := s.ac, continues := some true } := by
  show Host.Outcome.next { s with trap := .inTrap (s.ic + 2), ic := s.ac - 2 + 2, continues := some true } = _
  rw [BitVec.sub_add_cancel]

/-! ### The word below MAR (92 D10) -/

theorem wordInRange_eq_false_iff {a : Word} : wordInRange a = false ↔ 0xFFE < a.toNat := by
  rw [← Bool.not_eq_true, wordInRange_iff, not_le]

section Pop
variable {s : State} {rest : State → State}

theorem popWord_of_inRange (h : (s.mar - 2).toNat ≤ 0xFFE) :
    popWord s rest = rest { s with mar := s.mar - 2, mdr := s.wordHere (s.mar - 2).toNat } :=
  readInto_of_inRange (wordInRange_iff.2 h)

theorem popWord_of_outOfRange (h : 0xFFE < (s.mar - 2).toNat) :
    popWord s rest = State.raise { s with mar := s.mar - 2 } (.outOfRange (s.mar - 2)) :=
  readInto_of_outOfRange (wordInRange_eq_false_iff.2 h)

/-- A read of the stack-pointer word, which is never out of range (10_state.md R44). -/
theorem readInto_spAddr : readInto s spAddr rest = rest { s with mar := 0xFFE, mdr := s.wordHere 0xFFE } :=
  readInto_of_inRange spAddr_inRange

end Pop

/-! ### OS 0xEE -/

section PrintStatus
variable {argc : Nibble} {s : State}

theorem osPrintStatus_of_argc (h : argc ≠ 0) :
    exec (.osPrintStatus argc) s = .next (s.raise (.argumentCountMismatch 0xEE 0 argc)) := by
  rw [exec_osPrintStatus, execOsPrintStatus, if_pos h]

theorem osPrintStatus_of_absent (h : ∀ p ∈ s.config.statusCodes, p.1 ≠ s.ac) :
    exec (.osPrintStatus 0) s = .next (s.raise (.invalidServiceSelector 0xEE s.ac)) := by
  have hnone : s.config.statusCodes.lookup s.ac = none :=
    List.lookup_eq_none_iff.2 fun p hp => bne_iff_ne.2 (h p hp).symm
  rw [exec_osPrintStatus, execOsPrintStatus, if_neg (not_not.2 rfl), hnone]
  rfl

theorem osPrintStatus_of_present (h : ∃ p ∈ s.config.statusCodes, p.1 = s.ac) :
    exec (.osPrintStatus 0) s = .next (osEnd (s.emit (.status s.ac))) := by
  have hsome : ¬ (s.config.statusCodes.lookup s.ac).isNone = true := by
    obtain ⟨p, hp, hac⟩ := h
    rw [Option.isNone_iff_eq_none, List.lookup_eq_none_iff]
    exact fun hne => bne_iff_ne.1 (hne p hp) hac.symm
  rw [exec_osPrintStatus, execOsPrintStatus, if_neg (not_not.2 rfl), if_neg hsome]

end PrintStatus

/-! ### OS 0x57: the selection -/

section StackSelection
variable {s : State}

theorem osStack_of_badSelector (argc : Nibble) (h : 4 ≤ s.ac.toNat) :
    exec (.osStack argc) s = .next (s.raise (.invalidServiceSelector 0x57 s.ac)) := by
  rw [exec_osStack, execOsStack, stackArgc_of_four_le h]

theorem osStack_of_badCount {argc expected : Nibble} (h : stackArgc s.ac = some expected) (hne : argc ≠ expected) :
    exec (.osStack argc) s = .next (s.raise (.argumentCountMismatch 0x57 expected argc)) := by
  rw [exec_osStack, execOsStack, h]
  exact congrArg _ (if_pos hne)

theorem stackArgc_getter (h : s.ac = 0 ∨ s.ac = 2) : stackArgc s.ac = some 0 := by
  rcases h with h | h <;> rw [h] <;> rfl

theorem stackArgc_setter (h : s.ac = 1 ∨ s.ac = 3) : stackArgc s.ac = some 1 := by
  rcases h with h | h <;> rw [h] <;> rfl

theorem osStack_getPointer (h : s.ac = 0) : exec (.osStack 0) s = .next (stackGetPointer s) := by
  rw [exec_osStack, execOsStack, h]
  rfl

theorem osStack_setPointer (h : s.ac = 1) : exec (.osStack 1) s = .next (stackSetPointer s) := by
  rw [exec_osStack, execOsStack, h]
  rfl

theorem osStack_getTop (h : s.ac = 2) : exec (.osStack 0) s = .next (stackGetTop s) := by
  rw [exec_osStack, execOsStack, h]
  rfl

theorem osStack_setTop (h : s.ac = 3) : exec (.osStack 1) s = .next (stackSetTop s) := by
  rw [exec_osStack, execOsStack, h]
  rfl

end StackSelection

/-! ### OS 0x57: the services -/

section StackServices
variable {s : State}

theorem stackGetPointer_eq (s : State) :
    stackGetPointer s =
      { s with
        mar := 0xFFE, mdr := s.wordHere 0xFFE, ac := s.wordHere 0xFFE, ic := s.ic + 2, continues := some true } :=
  readInto_spAddr

theorem stackGetTop_of_inRange (h : (s.wordHere 0xFFE).toNat ≤ 0xFFE) :
    stackGetTop s =
      { s with
        mar := s.wordHere 0xFFE, mdr := s.wordHere (s.wordHere 0xFFE).toNat,
        ac := s.wordHere (s.wordHere 0xFFE).toNat, ic := s.ic + 2, continues := some true } :=
  readInto_spAddr.trans (readInto_of_inRange (wordInRange_iff.2 h))

theorem stackGetTop_of_outOfRange (h : 0xFFE < (s.wordHere 0xFFE).toNat) :
    stackGetTop s =
      State.raise { s with mar := s.wordHere 0xFFE, mdr := s.wordHere 0xFFE } (.outOfRange (s.wordHere 0xFFE)) :=
  readInto_spAddr.trans (readInto_of_outOfRange (wordInRange_eq_false_iff.2 h))

/-- Both setters take their argument first, so both fault where it is out of range. -/
theorem osStack_setter_of_outOfRange (hac : s.ac = 1 ∨ s.ac = 3) (h : 0xFFE < (s.mar - 2).toNat) :
    exec (.osStack 1) s = .next (State.raise { s with mar := s.mar - 2 } (.outOfRange (s.mar - 2))) := by
  rcases hac with hac | hac
  · rw [osStack_setPointer hac, stackSetPointer, popWord_of_outOfRange h]
  · rw [osStack_setTop hac, stackSetTop, popWord_of_outOfRange h]

variable (hmar : (s.mar - 2).toNat ≤ 0xFFE)
include hmar

theorem stackSetPointer_of_inRange :
    stackSetPointer s =
      { s with
        mar := 0xFFE, mdr := s.wordHere (s.mar - 2).toNat,
        mem := storeWord s.mem 0xFFE (s.wordHere (s.mar - 2).toNat), ic := s.ic + 2, continues := some true } :=
  (popWord_of_inRange hmar).trans (writeFrom_of_inRange spAddr_inRange)

theorem stackSetTop_of_inRange (h : (s.wordHere 0xFFE).toNat ≤ 0xFFE) :
    stackSetTop s =
      { s with
        mar := s.wordHere 0xFFE, mdr := s.wordHere (s.mar - 2).toNat,
        mem := storeWord s.mem (s.wordHere 0xFFE).toNat (s.wordHere (s.mar - 2).toNat), ic := s.ic + 2,
        continues := some true } :=
  (popWord_of_inRange hmar).trans (readInto_spAddr.trans (writeFrom_of_inRange (wordInRange_iff.2 h)))

theorem stackSetTop_of_outOfRange (h : 0xFFE < (s.wordHere 0xFFE).toNat) :
    stackSetTop s =
      State.raise { s with mar := s.wordHere 0xFFE, mdr := s.wordHere (s.mar - 2).toNat }
        (.outOfRange (s.wordHere 0xFFE)) :=
  (popWord_of_inRange hmar).trans (readInto_spAddr.trans (writeFrom_of_outOfRange (wordInRange_eq_false_iff.2 h)))

end StackServices

/-! ### OS 0x01 -/

section Bitwise
variable {argc : Nibble} {s : State}

theorem osBitwise_not (h : s.ac = 0) : exec (.osBitwise argc) s = .next (bitwiseOne s) := by
  rw [exec_osBitwise, execOsBitwise, h]
  rfl

theorem osBitwise_and (h : s.ac = 1) : exec (.osBitwise argc) s = .next (bitwiseTwo 0xB s) := by
  rw [exec_osBitwise, execOsBitwise, h]
  rfl

theorem osBitwise_or (h : s.ac = 2) : exec (.osBitwise argc) s = .next (bitwiseTwo 0xC s) := by
  rw [exec_osBitwise, execOsBitwise, h]
  rfl

theorem osBitwise_xor (h : s.ac = 3) : exec (.osBitwise argc) s = .next (bitwiseTwo 0xD s) := by
  rw [exec_osBitwise, execOsBitwise, h]
  rfl

theorem osBitwise_of_badSelector (h : 4 ≤ s.ac.toNat) :
    exec (.osBitwise argc) s = .next (s.raise (.invalidServiceSelector 0x01 s.ac)) := by
  rw [exec_osBitwise, execOsBitwise]
  split
  case h_5 => rfl
  all_goals omega

/-- Every selector from 1 on takes two words, whatever it makes of them. -/
theorem osBitwise_two (h1 : 1 ≤ s.ac.toNat) (h4 : s.ac.toNat < 4) :
    ∃ code, exec (.osBitwise argc) s = .next (bitwiseTwo code s) := by
  rcases selector_cases s.ac with h | h | h | h | h
  · simp [h] at h1
  · exact ⟨_, osBitwise_and h⟩
  · exact ⟨_, osBitwise_or h⟩
  · exact ⟨_, osBitwise_xor h⟩
  · omega

/-- Every selector takes the word below MAR first. -/
theorem osBitwise_pops (h4 : s.ac.toNat < 4) : ∃ rest, exec (.osBitwise argc) s = .next (popWord s rest) := by
  rcases Nat.eq_zero_or_pos s.ac.toNat with h0 | h1
  · exact ⟨_, osBitwise_not (BitVec.eq_of_toNat_eq h0)⟩
  · obtain ⟨code, hexec⟩ := osBitwise_two (argc := argc) h1 h4
    exact ⟨_, hexec⟩

theorem aluWord_not_complement (x b : Word) : aluWord 0xA x b = .ok (~~~ x) :=
  (aluWord_not x b).trans (congrArg _ BitVec.xor_allOnes)

variable (hx : (s.mar - 2).toNat ≤ 0xFFE)
include hx

theorem bitwiseOne_of_inRange :
    bitwiseOne s =
      { s with
        mar := s.mar - 2, mdr := s.wordHere (s.mar - 2).toNat, ac := ~~~ s.wordHere (s.mar - 2).toNat,
        ic := s.ic + 2, continues := some true } :=
  (popWord_of_inRange hx).trans (aluIntoAc_of_ok (aluWord_not_complement _ _))

theorem bitwiseTwo_of_inRange {code : Nibble} {r : Word} (hy : (s.mar - 2 - 2).toNat ≤ 0xFFE)
    (hr : aluWord code (s.wordHere (s.mar - 2).toNat) (s.wordHere (s.mar - 2 - 2).toNat) = .ok r) :
    bitwiseTwo code s =
      { s with
        mar := s.mar - 2 - 2, mdr := s.wordHere (s.mar - 2 - 2).toNat, ac := r, ic := s.ic + 2,
        continues := some true } :=
  (popWord_of_inRange hx).trans ((popWord_of_inRange hy).trans (aluIntoAc_of_ok hr))

theorem bitwiseTwo_of_outOfRange (code : Nibble) (hy : 0xFFE < (s.mar - 2 - 2).toNat) :
    bitwiseTwo code s =
      State.raise { s with mar := s.mar - 2 - 2, mdr := s.wordHere (s.mar - 2).toNat }
        (.outOfRange (s.mar - 2 - 2)) :=
  (popWord_of_inRange hx).trans (popWord_of_outOfRange hy)

end Bitwise

/-! ### OS 0x0D -/

section BufferService
variable {s : State} {t i : Byte} {d : Device}

theorem bufferService_clean (hac : s.ac = 0) (hb : d.kind.buffered = true) :
    bufferService s t i d = osEnd ((s.cleanBuffer t i).emit (.bufferCleaned t i)) := by
  rw [bufferService, hac]
  exact if_pos hb

theorem bufferService_append (hac : s.ac = 1) (hb : d.kind.buffered = true) :
    bufferService s t i d = osEnd ((s.appendBuffer t i d).emit (.bufferAppended t i)) := by
  rw [bufferService, hac]
  exact if_pos hb

theorem bufferService_of_badSelector (hac : 2 ≤ s.ac.toNat) :
    bufferService s t i d = s.raise (.invalidServiceSelector 0x0D s.ac) := by
  rw [bufferService]
  split
  case h_3 => rfl
  all_goals omega

theorem bufferService_of_unbuffered (hac : s.ac.toNat < 2) (hb : d.kind.buffered = false) :
    bufferService s t i d = s.raise (.noBuffer t i) := by
  have hsel : s.ac.toNat = 0 ∨ s.ac.toNat = 1 := by omega
  rcases hsel with h | h <;> rw [bufferService, h, hb] <;> rfl

/-- The buffered devices are the keyboards and the disks opened for reading (20_memory.md R91). -/
theorem buffered_cases {k : DeviceKind} (h : k.buffered = true) : k = .keyboard ∨ ∃ path, k = .disk .read path := by
  cases k with
  | keyboard => exact .inl rfl
  | disk mode path =>
    cases mode
    · exact .inr ⟨path, rfl⟩
    · cases h
  | display | printer => cases h

theorem appendBuffer_of_keyboard (h : d.kind = .keyboard) :
    s.appendBuffer t i d = s.pullLine.2.setBuffer t i (d.buffer ++ s.pullLine.1.getD []) := by
  rw [State.appendBuffer, h]

theorem appendBuffer_of_disk {mode : DiskMode} {path : String} (h : d.kind = .disk mode path) :
    s.appendBuffer t i d =
      s.setBuffer t i ((if Config.diskAppendKeepsRest then d.buffer else []) ++ fileBytes s.files path) := by
  rw [State.appendBuffer, h]

/-- The environment's line does not depend on MAR and MDR, and a pull leaves them. -/
theorem pullLine_of_registers (s : State) (a v : Word) :
    State.pullLine { s with mar := a, mdr := v } =
      (s.pullLine.1,
        { s with mar := a, mdr := v, inputs := s.pullLine.2.inputs, draws := s.pullLine.2.draws }) := by
  unfold State.pullLine
  dsimp only
  split <;> rfl

end BufferService

section BufferControl
variable {argc : Nibble} {s : State} {w : Word}

theorem osBufferControl_of_outOfRange (h : 0xFFE < (s.mar - 2).toNat) :
    exec (.osBufferControl argc) s = .next (State.raise { s with mar := s.mar - 2 } (.outOfRange (s.mar - 2))) := by
  rw [exec_osBufferControl, execOsBufferControl, popWord_of_outOfRange h]

variable (hmar : (s.mar - 2).toNat ≤ 0xFFE) (hw : s.wordHere (s.mar - 2).toNat = w)
include hmar hw

theorem osBufferControl_of_absent (hd : s.lookup (highByte w) (lowByte w) = none) :
    exec (.osBufferControl argc) s =
      .next (State.raise { s with mar := s.mar - 2, mdr := w } (.deviceNotFound (highByte w) (lowByte w))) := by
  have hd' : State.lookup { s with mar := s.mar - 2, mdr := w } (highByte w) (lowByte w) = none := hd
  rw [exec_osBufferControl, execOsBufferControl, popWord_of_inRange hmar, hw]
  simp only [hd']

theorem osBufferControl_of_found {d : Device} (hd : s.lookup (highByte w) (lowByte w) = some d) :
    exec (.osBufferControl argc) s =
      .next (bufferService { s with mar := s.mar - 2, mdr := w } (highByte w) (lowByte w) d) := by
  have hd' : State.lookup { s with mar := s.mar - 2, mdr := w } (highByte w) (lowByte w) = some d := hd
  rw [exec_osBufferControl, execOsBufferControl, popWord_of_inRange hmar, hw]
  simp only [hd']

variable {d : Device} (hd : s.lookup (highByte w) (lowByte w) = some d)
include hd

theorem osBufferControl_clean (hac : s.ac = 0) (hb : d.kind.buffered = true) :
    exec (.osBufferControl argc) s = .next
      { s.setBuffer (highByte w) (lowByte w) [] with
        mar := s.mar - 2, mdr := w, events := s.events ++ [.bufferCleaned (highByte w) (lowByte w)],
        ic := s.ic + 2, continues := some true } :=
  (osBufferControl_of_found hmar hw hd).trans (congrArg _ (bufferService_clean hac hb))

theorem osBufferControl_append (hac : s.ac = 1) (hb : d.kind.buffered = true) :
    exec (.osBufferControl argc) s = .next (osEnd (State.emit
      (State.appendBuffer { s with mar := s.mar - 2, mdr := w } (highByte w) (lowByte w) d)
      (.bufferAppended (highByte w) (lowByte w)))) :=
  (osBufferControl_of_found hmar hw hd).trans (congrArg _ (bufferService_append hac hb))

theorem osBufferControl_appendDisk {path : String} (hac : s.ac = 1) (hk : d.kind = .disk .read path) :
    exec (.osBufferControl argc) s = .next
      { s.setBuffer (highByte w) (lowByte w)
          ((if Config.diskAppendKeepsRest then d.buffer else []) ++ fileBytes s.files path) with
        mar := s.mar - 2, mdr := w, events := s.events ++ [.bufferAppended (highByte w) (lowByte w)],
        ic := s.ic + 2, continues := some true } := by
  have hb : d.kind.buffered = true := by rw [hk]; rfl
  rw [osBufferControl_append hmar hw hd hac hb, appendBuffer_of_disk hk]
  rfl

theorem osBufferControl_appendKeyboard (hac : s.ac = 1) (hk : d.kind = .keyboard) :
    exec (.osBufferControl argc) s = .next
      { s.setBuffer (highByte w) (lowByte w) (d.buffer ++ s.pullLine.1.getD []) with
        mar := s.mar - 2, mdr := w, inputs := s.pullLine.2.inputs, draws := s.pullLine.2.draws,
        events := s.events ++ [.bufferAppended (highByte w) (lowByte w)], ic := s.ic + 2,
        continues := some true } := by
  have hb : d.kind.buffered = true := by rw [hk]; rfl
  rw [osBufferControl_append hmar hw hd hac hb, appendBuffer_of_keyboard hk, pullLine_of_registers]
  rfl

end BufferControl

/-! ### The statements of 47_os_trap.md -/

/-- Settles O41: the call lands on AC, and where no word starts there the next step faults in fetch. -/
theorem softwareCallEntersAtAc : Obligations.SoftwareCallEntersAtAc := by
  intro argc s
  refine ⟨exec_osSoftwareCall argc s, fun hac hrecord t h => ?_⟩
  rw [exec_osSoftwareCall] at h
  cases h
  exact step_of_ic_outOfRange hrecord rfl (wordInRange_eq_false_iff.2 hac)

/-- Settles O42: the call saves its own return address over any older one, and the HALT that takes it leaves Running. -/
theorem haltReturnsFromTheLastCall : Obligations.HaltReturnsFromTheLastCall := by
  intro argc oi oi' s t u h htrap
  rw [exec_osSoftwareCall] at h
  cases h
  exact ⟨_, exec_halt_of_inTrap oi htrap, rfl, rfl, rfl, fun x hx => ⟨_, exec_halt_of_running oi' hx, rfl, rfl⟩⟩

/-- Settles O46, by the two checks in their order. -/
theorem printStatusChecksThenEmits : Obligations.PrintStatusChecksThenEmits := by
  intro argc s
  refine ⟨osPrintStatus_of_argc, ?_, ?_⟩
  · rintro rfl habsent
    exact osPrintStatus_of_absent habsent
  · rintro rfl hpresent
    exact osPrintStatus_of_present hpresent

/-- Settles O47: the stack-pointer word is always in range, and what it points to decides get-stacktop. -/
theorem stackGetters : Obligations.StackGetters := by
  intro s
  constructor
  · intro hac
    rw [osStack_getPointer hac, stackGetPointer_eq]
  · rintro hac _ rfl
    rw [osStack_getTop hac]
    exact ⟨fun h => congrArg _ (stackGetTop_of_inRange h), fun h => congrArg _ (stackGetTop_of_outOfRange h)⟩

/-- Settles O48: either setter stores the word taken, whose bytes and whose frame the laws of memory give. -/
theorem stackSetters : Obligations.StackSetters := by
  rintro s _ hwf hmar rfl
  constructor
  · intro hac
    exact ⟨_, (osStack_setPointer hac).trans (congrArg _ (stackSetPointer_of_inRange hmar)), rfl,
      wordAt_storeWord hwf (by decide), fun _ => read_storeWord_other⟩
  · rintro hac _ rfl hsp
    exact ⟨_, (osStack_setTop hac).trans (congrArg _ (stackSetTop_of_inRange hmar hsp)), rfl,
      wordAt_storeWord hwf (by omega), fun _ => read_storeWord_other⟩

/-- Settles O49, by the checks in their order: selector, argument count, argument, pointer. -/
theorem stackFaults : Obligations.StackFaults := by
  intro argc s
  refine ⟨osStack_of_badSelector argc, fun hac hne => ?_, fun hac hne => ?_, ?_, ?_⟩
  · exact osStack_of_badCount (stackArgc_getter hac) hne
  · exact osStack_of_badCount (stackArgc_setter hac) hne
  · rintro hac rfl hmar
    exact osStack_setter_of_outOfRange hac hmar
  · rintro hac rfl hmar hsp
    exact (osStack_setTop hac).trans (congrArg _ (stackSetTop_of_outOfRange hmar hsp))

/-- Settles O50: the selector names the ALU function that the words taken go through. -/
theorem bitwiseOnWordsBelowMar : Obligations.BitwiseOnWordsBelowMar := by
  rintro argc s _ hx rfl
  constructor
  · intro hac
    rw [osBitwise_not hac, bitwiseOne_of_inRange hx]
  · rintro _ hy rfl
    refine ⟨fun hac => ?_, fun hac => ?_, fun hac => ?_⟩
    · rw [osBitwise_and hac, bitwiseTwo_of_inRange hx hy (aluWord_and _ _)]
    · rw [osBitwise_or hac, bitwiseTwo_of_inRange hx hy (aluWord_or _ _)]
    · rw [osBitwise_xor hac, bitwiseTwo_of_inRange hx hy (aluWord_xor _ _)]

/-- Settles O51: the selector is checked first, and then each word taken can be out of range. -/
theorem bitwiseFaults : Obligations.BitwiseFaults := by
  intro argc s
  refine ⟨osBitwise_of_badSelector, fun h4 hx => ?_, fun h1 h4 hx hy => ?_⟩
  · obtain ⟨rest, hexec⟩ := osBitwise_pops (argc := argc) h4
    exact hexec.trans (congrArg _ (popWord_of_outOfRange hx))
  · obtain ⟨code, hexec⟩ := osBitwise_two (argc := argc) h1 h4
    exact hexec.trans (congrArg _ (bitwiseTwo_of_outOfRange hx code hy))

/-- Settles O52: either service replaces the buffer of the device that was found; what append puts there depends on
which of the two buffered types it is. -/
theorem bufferControlCleansOrAppends : Obligations.BufferControlCleansOrAppends := by
  rintro argc s w _ _ d hmar hw rfl rfl hd hb
  have hother (b : List Byte) (t' k' : Byte) (hne : (t', k') ≠ (highByte w, lowByte w)) :
      (s.setBuffer (highByte w) (lowByte w) b).lookup t' k' = s.lookup t' k' :=
    lookup_setBuffer_other hne b
  constructor
  · intro hac
    exact ⟨_, osBufferControl_clean hmar hw hd hac hb, rfl, lookup_setBuffer hd [], hother []⟩
  · intro hac
    rcases buffered_cases hb with hk | ⟨path, hk⟩
    · refine ⟨_, _, osBufferControl_appendKeyboard hmar hw hd hac hk, rfl, lookup_setBuffer hd _,
        fun _ => ⟨rfl, rfl, rfl⟩, fun path h => ?notDisk, hother _⟩
      case notDisk => cases hk.symm.trans h
    · refine ⟨_, _, osBufferControl_appendDisk hmar hw hd hac hk, rfl, lookup_setBuffer hd _,
        fun h => ?notKeyboard, fun path' h => ?reloaded, hother _⟩
      case notKeyboard => cases hk.symm.trans h
      case reloaded =>
        cases hk.symm.trans h
        refine ⟨rfl, rfl, ?_⟩
        cases Config.diskAppendKeepsRest
        · exact .inl rfl
        · exact .inr rfl

/-- Settles O53, by the checks in their order: argument, device, selector, buffer. -/
theorem bufferControlFaults : Obligations.BufferControlFaults := by
  intro argc s
  refine ⟨osBufferControl_of_outOfRange, ?_⟩
  rintro w _ _ hmar hw rfl rfl
  refine ⟨osBufferControl_of_absent hmar hw, fun d hd => ⟨fun hac => ?_, fun hac hk => ?_⟩⟩
  · exact (osBufferControl_of_found hmar hw hd).trans (congrArg _ (bufferService_of_badSelector hac))
  · have hb : d.kind.buffered = false := by rcases hk with hk | hk | ⟨path, hk⟩ <;> rw [hk] <;> rfl
    exact (osBufferControl_of_found hmar hw hd).trans (congrArg _ (bufferService_of_unbuffered hac hb))

/-- Settles O54: the arm is its event and the common end of the OS trap. -/
theorem delayEmitsMilliseconds : Obligations.DelayEmitsMilliseconds := exec_osDelay

/-- Settles O55: the sub-code selects no row of its own, and the arm that is left only emits. -/
theorem unknownTrapEmitsDiagnostic : Obligations.UnknownTrapEmitsDiagnostic := by
  intro argc code s hcode
  have hword : (((0xF : Nibble) ++ argc : Byte) ++ code : Word) = wordOfFields 0xF (operandOf argc code) :=
    BitVec.append_assoc
  refine ⟨?_, exec_osUnknown argc code s⟩
  rw [hword, decodeWord_os, decodeOs_of_not_known argc hcode]

end Sys2Proof.Machine

/-! ## Exceptions

How a time interrupt is taken, how a step ends, what an instruction that faults has written, and the statements about
60_exceptions.md that follow. -/

namespace Sys2Proof.Machine

/-! ### The time interrupt -/

/-- A pending time interrupt executes SUBROUTINE 0x000 in place of the word at IC (R345). -/
theorem step_of_interruptDue {s : State} (h : s.faultRecord = none) (hr : wordInRange s.ic = true)
    (hi : s.interruptDue) :
    step s = exec (.subroutine 0)
      { s with mar := s.ic, mdr := s.wordHere s.ic.toNat, ir := sentinel, op := 0xA, oi := 0, stepCount := 1 } := by
  rw [step_of_inRange h hr, decodePhase_of_interruptDue hi, executePhase, decodeWord_sentinel]

/-! ### How a step ends -/

theorem DecodedFrom.ic {s f : State} (h : DecodedFrom s f) : f.ic = s.ic := by rw [h.frame]

/-- A step that answers a state ends as the execute phase of an instruction does. -/
theorem step_ended {s t : State} (h : step s = .next t) : Ended s t := by
  rcases step_executes h with rfl | ⟨i, f, hf, hx⟩
  · exact .faulted _ rfl rfl rfl
  · cases exec_ended hx with
    | completed record returns => exact .completed (record.trans hf.faultRecord) returns
    | faulted fault record counter returns =>
      exact .faulted fault (hf.ic ▸ record) (counter.trans hf.ic) returns

/-! ### What a faulting instruction has written -/

/-- From `s` to `t` no fault was raised, or one was raised before anything but MAR and MDR was written (R332). -/
def PreciseFault (s t : State) : Prop :=
  t.faultRecord = s.faultRecord ∨ ∃ f a w, t = State.raise { s with mar := a, mdr := w } f

theorem raise_precise (s : State) (f : Fault) : PreciseFault s (s.raise f) := .inr ⟨f, s.mar, s.mdr, rfl⟩

theorem accumulate_precise (code : Nibble) (oi : Operand) (s : State) : PreciseFault s (accumulate code oi s) :=
  readInto_post (fun _ => aluIntoAc_post (fun _ _ => .inl rfl) fun f _ => .inr ⟨f, _, _, rfl⟩)
    fun _ => .inr ⟨_, _, _, rfl⟩

theorem execOsStack_precise {argc : Nibble} {s t : State} (h : execOsStack argc s = .next t) : PreciseFault s t := by
  rcases execOsStack_cases argc s with
    ⟨-, h'⟩ | ⟨_, -, -, h'⟩ | ⟨-, -, h'⟩ | ⟨-, -, h'⟩ | ⟨-, -, h'⟩ | ⟨-, -, h'⟩ <;> cases h.symm.trans h'
  · exact raise_precise s _
  · exact raise_precise s _
  · exact readInto_post (fun _ => .inl rfl) fun _ => .inr ⟨_, _, _, rfl⟩
  · exact popWord_post (fun _ => writeFrom_post (fun _ => .inl rfl) fun _ => .inr ⟨_, _, _, rfl⟩)
      fun _ => .inr ⟨_, _, _, rfl⟩
  · exact readInto_post (fun _ => readInto_post (fun _ => .inl rfl) fun _ => .inr ⟨_, _, _, rfl⟩)
      fun _ => .inr ⟨_, _, _, rfl⟩
  · exact popWord_post
      (fun _ => readInto_post
        (fun _ => writeFrom_post (fun _ => .inl rfl) fun _ => .inr ⟨_, _, _, rfl⟩)
        fun _ => .inr ⟨_, _, _, rfl⟩)
      fun _ => .inr ⟨_, _, _, rfl⟩

theorem execOsBitwise_precise {argc : Nibble} {s t : State} (h : execOsBitwise argc s = .next t) :
    PreciseFault s t := by
  have two (code : Nibble) : PreciseFault s (bitwiseTwo code s) :=
    popWord_post
      (fun _ => popWord_post
        (fun _ => aluIntoAc_post (fun _ _ => .inl rfl) fun f _ => .inr ⟨f, _, _, rfl⟩)
        fun _ => .inr ⟨_, _, _, rfl⟩)
      fun _ => .inr ⟨_, _, _, rfl⟩
  cases h
  split
  · exact popWord_post (fun _ => aluIntoAc_post (fun _ _ => .inl rfl) fun f _ => .inr ⟨f, _, _, rfl⟩)
      fun _ => .inr ⟨_, _, _, rfl⟩
  · exact two _
  · exact two _
  · exact two _
  · exact raise_precise s _

/-- Every instruction makes its checks before it writes anything but MAR and MDR. -/
theorem exec_precise {i : Instr} {s t : State} (h : exec i s = .next t) : PreciseFault s t := by
  have hrecord : t.faultRecord = (frameOf i s t).faultRecord := congrArg State.faultRecord (exec_framed h)
  cases i
  case add | sub | mul | div => cases h; exact accumulate_precise _ _ s
  case load | ret => cases h; exact readInto_post (fun _ => .inl rfl) fun _ => .inr ⟨_, _, _, rfl⟩
  case memory | subroutine => cases h; exact writeFrom_post (fun _ => .inl rfl) fun _ => .inr ⟨_, _, _, rfl⟩
  case getData dt k =>
    cases h
    refine devRead_post (fun d _ _ => ?_) (raise_precise s)
    obtain ⟨b, lines, n, hd⟩ := getData_cases s (selectorCode dt) k d
    rw [hd]
    exact .inl rfl
  case putData =>
    cases h
    refine devWrite_post (fun d _ _ => ?_) (raise_precise s)
    rw [putData_eq]
    exact .inl rfl
  case osPrintStatus =>
    cases h
    split
    · exact raise_precise s _
    · split
      · exact raise_precise s _
      · exact .inl rfl
  case osStack => exact execOsStack_precise h
  case osBitwise argc => exact execOsBitwise_precise (argc := argc) h
  case osBufferControl =>
    cases h
    refine popWord_post (fun _ => ?_) fun _ => .inr ⟨_, _, _, rfl⟩
    split
    · exact .inr ⟨_, _, _, rfl⟩
    · rcases bufferService_cases _ _ _ _ with ⟨f, hf⟩ | ⟨b, lines, n, e, -, hb⟩
      · rw [hf]; exact .inr ⟨f, _, _, rfl⟩
      · rw [hb]; exact .inl rfl
  all_goals exact .inl hrecord

/-! ### The statements of 60_exceptions.md -/

/-- Settles O8: the interrupt executes SUBROUTINE 0x000, whose outcome O37 gives. -/
theorem timeInterruptEntry : Obligations.TimeInterruptEntry := by
  intro s hrecord hic hi hwf
  rw [step_of_interruptDue hrecord (wordInRange_iff.2 hic) hi]
  exact (subroutineSavesReturnWord 0 _).1 hwf (by decide)

/-- Settles O13: fetch and decode write none of these fields, and every instruction makes its checks before it does. -/
theorem faultingStepIsPrecise : Obligations.FaultingStepIsPrecise := by
  intro s t h hfault
  have hnone : s.faultRecord = none := (step_next_cases h).1
  rcases step_executes h with rfl | ⟨i, f, hf, hx⟩
  · exact ⟨rfl, _, rfl⟩
  · rcases exec_precise hx with hrecord | ⟨fault, a, w, rfl⟩
    · exact absurd (hrecord.trans (hf.faultRecord.trans hnone)) hfault
    · exact ⟨by rw [hf.frame]; rfl, fault, by simp [hf.ic]⟩

end Sys2Proof.Machine

/-! ## Load and run

What a load answers, the step that halts the machine, how a run ends, and the statements about 70_reset_and_hazards.md. -/

namespace Sys2Proof.Machine

/-! ### Load -/

theorem isLoadPair_iff {entry : List Word} : isLoadPair entry = true ↔ entry.length = 2 := beq_iff_eq

theorem loadOutOfRange_pair_iff {a v : Word} : loadOutOfRange [a, v] = true ↔ 0xFFE < a.toNat := by
  simp [loadOutOfRange, ← Bool.not_eq_true, wordInRange_iff]

/-- Everything a load can do: fail on an entry that is no pair, fail on an address out of range where every entry is a
pair, or write every pair in order (R390, R391). -/
theorem hostLoad_cases (s : State) (entries : List (List Word)) :
    (∃ k e, entries[k]? = some e ∧ e.length ≠ 2 ∧ hostLoad s entries = .error (.malformedLoad k)) ∨
    ((∀ e ∈ entries, e.length = 2) ∧
      ∃ a v, [a, v] ∈ entries ∧ 0xFFE < a.toNat ∧ hostLoad s entries = .error (.outOfRange a)) ∨
    ((∀ e ∈ entries, e.length = 2) ∧ (∀ e ∈ entries, ¬ loadOutOfRange e = true) ∧
      hostLoad s entries = .ok { s with mem := entries.foldl loadPair s.mem }) := by
  unfold hostLoad
  cases hk : entries.findIdx? fun e => !isLoadPair e with
  | some k =>
    obtain ⟨hlt, hbad, -⟩ := List.findIdx?_eq_some_iff_getElem.1 hk
    refine .inl ⟨k, entries[k], List.getElem?_eq_getElem hlt, fun hlen => ?_, rfl⟩
    simp [isLoadPair_iff.2 hlen] at hbad
  | none =>
    have hpairs : ∀ e ∈ entries, e.length = 2 := by simpa [isLoadPair] using hk
    refine .inr ?_
    cases he : entries.find? loadOutOfRange with
    | some e =>
      have hmem : e ∈ entries := List.mem_of_find?_eq_some he
      obtain ⟨a, v, rfl⟩ := List.length_eq_two.1 (hpairs e hmem)
      exact .inl ⟨hpairs, a, v, hmem, loadOutOfRange_pair_iff.1 (List.find?_some he), rfl⟩
    | none => exact .inr ⟨hpairs, List.find?_eq_none.1 he, rfl⟩

/-- A load of pairs in range writes them in order. -/
theorem hostLoad_of_good {s : State} {entries : List (List Word)} (hpairs : ∀ e ∈ entries, e.length = 2)
    (hrange : ∀ e ∈ entries, ¬ loadOutOfRange e = true) :
    hostLoad s entries = .ok { s with mem := entries.foldl loadPair s.mem } := by
  rcases hostLoad_cases s entries with ⟨k, e, hk, hlen, -⟩ | ⟨-, a, v, hmem, ha, -⟩ | ⟨-, -, h⟩
  · exact absurd (hpairs e (List.mem_of_getElem? hk)) hlen
  · exact absurd (loadOutOfRange_pair_iff.2 ha) (hrange _ hmem)
  · exact h

theorem hostSetWord_of_inRange {s : State} {a v : Word} (h : wordInRange a = true) :
    hostSetWord s a v = .ok { s with mem := storeWord s.mem a.toNat v } := by
  simp [hostSetWord, writeWord_of_inRange h]

/-! ### The state in which a given word runs next -/

theorem tableWord_toNat (w : Word) : tableWord 16 w.toNat = w := by
  rw [tableWord, Nat.mod_eq_of_lt w.isLt, BitVec.ofNat_toNat, BitVec.setWidth_eq]

section WithFetchWord
variable (s : State) (w : Word)

theorem withFetchWord_faultRecord : (s.withFetchWord 16 w.toNat).faultRecord = none := rfl

theorem withFetchWord_inRange : wordInRange (s.withFetchWord 16 w.toNat).ic = true := by
  show wordInRange (if wordInRange s.ic then s.ic else 0) = true
  split
  · assumption
  · decide

/-- A pending time interrupt is switched off, and one that is not pending stays so. -/
theorem withFetchWord_noInterrupt : (s.withFetchWord 16 w.toNat).noInterrupt := by
  show (s.config.tiEnabled && !s.timeInterruptPending) = false ∨ s.stepCount < s.config.tiLimit
  rcases noInterrupt_or_due s with h | h
  · exact h.imp_left fun hoff => by simp [hoff]
  · exact .inl (by simp [pending_of_interruptDue h])

/-- The word at IC is the one that was placed there. -/
theorem withFetchWord_wordHere (h : Memory.wf s.mem = true) :
    (s.withFetchWord 16 w.toNat).wordHere (s.withFetchWord 16 w.toNat).ic.toNat = w := by
  have hic : s.readyToFetch.ic.toNat ≤ 0xFFE := wordInRange_iff.1 (withFetchWord_inRange s w)
  exact (wordAt_storeWord h (by omega)).trans (tableWord_toNat w)

end WithFetchWord

/-! ### The step that halts the machine -/

/-- A step that returns false executes a HALT with TrapState Running, which leaves the fetched state (45_halt.md R250). -/
theorem step_stops {s t : State} (h : step s = .next t) (hstop : t.continues = some false) :
    wordInRange s.ic = true ∧ s.faultRecord = none ∧ s.trap = .running ∧
      (∃ oi, decodeWord (s.wordHere s.ic.toNat) = .halt oi) ∧ t = s.fetched.stop := by
  obtain ⟨hic, hi, htrap, oi, hhalt⟩ := (returnsFalseExactlyOnTrueHalt s t h).1.1 hstop
  have hr : wordInRange s.ic = true := wordInRange_iff.2 hic
  have hrecord : s.faultRecord = none := (step_next_cases h).1
  refine ⟨hr, hrecord, htrap, ⟨oi, hhalt⟩, ?_⟩
  rw [step_of_noInterrupt hrecord hr hi, hhalt, exec_halt_of_running (s := s.fetched) oi htrap] at h
  exact (Host.Outcome.next.inj h).symm

/-! ### run -/

/-- What the end of a run says of the state it leaves (R394). -/
def RunEnd.Justified : RunEnd → Prop
  | .halted t => ∃ s, step s = .next t ∧ t.continues = some false
  | .faulted t => t.faultRecord ≠ none
  | .capExceeded _ => True
  | .refused _ => False

/-- No step is refused. -/
theorem step_ne_refused (s : State) (r : Refusal) : step s ≠ .refused r := by
  cases hrecord : s.faultRecord with
  | none =>
    obtain ⟨t, h⟩ := everyUnfaultedStepAnswersAState s hrecord
    simp [h]
  | some fr => simp [step_of_faulted hrecord]

/-- A state whose step answers a fault has a fault record. -/
theorem faultRecord_of_step_fault {s : State} {f : Fault} (h : step s = .fault f) : s.faultRecord ≠ none := by
  intro hrecord
  obtain ⟨t, ht⟩ := everyUnfaultedStepAnswersAState s hrecord
  simp [ht] at h

/-- A step that returns nothing has raised a fault. -/
theorem Ended.faultRecord_of_returns_none {s t : State} (h : Ended s t) (hnone : t.continues = none) :
    t.faultRecord ≠ none := by
  cases h with
  | completed _ returns => simp [hnone] at returns
  | faulted f record => simp [record]

/-- Every end of the loop is justified, by induction on the cap. -/
theorem hostLoop_justified (n : Nat) (s : State) : (hostLoop n s).Justified := by
  induction n generalizing s with
  | zero => trivial
  | succ n ih =>
    unfold hostLoop
    split
    · next t h =>
      split
      · exact ih t
      · next hstop => exact ⟨s, h, hstop⟩
      · next hnone => exact (step_ended h).faultRecord_of_returns_none hnone
    · next h => exact faultRecord_of_step_fault h
    · next r h => exact step_ne_refused s r h

/-! ### The statements of 70_reset_and_hazards.md -/

/-- Settles O23: the first HALT moved neither IC nor memory, so the second step fetches it again, and writes to the
registers what they hold. -/
theorem haltedMachineHaltsAgain : Obligations.HaltedMachineHaltsAgain := by
  intro s t h hstop hi
  obtain ⟨hr, hrecord, htrap, ⟨oi, hhalt⟩, rfl⟩ := step_stops h hstop
  have hagain : decodeWord (s.fetched.stop.wordHere s.fetched.stop.ic.toNat) = .halt oi := hhalt
  rw [step_of_noInterrupt (s := s.fetched.stop) hrecord hr hi, hagain,
    exec_halt_of_running (s := s.fetched.stop.fetched) oi htrap]
  rfl

/-- Settles O24: the placed word is in range and fetched, with no fault and no interrupt before it. -/
theorem wordPlacedAtIcRunsNext : Obligations.WordPlacedAtIcRunsNext := by
  intro s w hwf
  rw [step_of_noInterrupt (withFetchWord_faultRecord s w) (withFetchWord_inRange s w) (withFetchWord_noInterrupt s w),
    withFetchWord_wordHere s w hwf]

/-- Settles O56: the longer load passes the same checks, and its last write is that of `set_word`. -/
theorem loadWritesInOrder : Obligations.LoadWritesInOrder := by
  refine ⟨fun _ => rfl, fun s t entries a v h ha => ?_⟩
  rcases hostLoad_cases s entries with ⟨k, e, -, -, h'⟩ | ⟨-, a', v', -, -, h'⟩ | ⟨hpairs, hrange, h'⟩ <;>
    cases h.symm.trans h'
  have hr : wordInRange a = true := wordInRange_iff.2 ha
  rw [hostSetWord_of_inRange hr, hostLoad_of_good, List.foldl_append]
  · rfl
  · simpa [or_imp, forall_and] using hpairs
  · simpa [or_imp, forall_and, loadOutOfRange, hr] using hrange

/-- Settles O57: a load writes only where no entry is bad, and otherwise names one. -/
theorem loadFailsWhole : Obligations.LoadFailsWhole := by
  intro s entries
  rcases hostLoad_cases s entries with ⟨k, e, hk, hlen, h⟩ | ⟨hpairs, a, v, hmem, ha, h⟩ | ⟨hpairs, hrange, -⟩
  · exact ⟨fun _ => ⟨k, e, h, hk, hlen⟩, fun hpairs => absurd (hpairs e (List.mem_of_getElem? hk)) hlen⟩
  · exact ⟨fun ⟨e, he, hlen⟩ => absurd (hpairs e he) hlen, fun _ _ => ⟨a, v, h, hmem, ha⟩⟩
  · refine ⟨fun ⟨e, he, hlen⟩ => absurd (hpairs e he) hlen, fun _ ⟨a, v, hmem, ha⟩ => ?_⟩
    exact absurd (loadOutOfRange_pair_iff.2 ha) (hrange _ hmem)

/-- Settles O58: each end of the run is justified, and a step that returned false left TrapState Running and no fault. -/
theorem runEndsAsTheLastStepDid : Obligations.RunEndsAsTheLastStepDid := by
  intro s start cap
  have hend : (hostRun s start cap).Justified := hostLoop_justified cap _
  refine ⟨fun t h => ?_, fun t h => ?_, fun r h => ?_⟩ <;> rw [h] at hend
  · obtain ⟨s', hstep, hstop⟩ := hend
    obtain ⟨-, hrecord, htrap, -, rfl⟩ := step_stops hstep hstop
    exact ⟨hstop, hrecord, htrap⟩
  · exact hend
  · exact hend

end Sys2Proof.Machine
